-- ==== Sys2Proof/Word.lean ====
section
/-! DEFINITION. The word types of HUFFCORE (00_scope.md R12, R13): 32-bit unsigned register words, container bytes, aperture offsets and bit strings. -/

namespace Sys2Proof

/-- A register or SYM word: 32 bits, unsigned (R12, R30). -/
abbrev Word := BitVec 32

/-- A container byte, as BYT memory holds it (R60). -/
abbrev Byte := BitVec 8

/-- A byte offset into the 16 MiB host aperture, 0x000000 to 0xFFFFFF (R80). -/
abbrev Offset := BitVec 24

/-- A bit string, code or payload sequence; index 0 is its first bit (R13). -/
abbrev Bits := List Bool

/-- A natural number as a 32-bit word; the rules that use it say where its value fits 32 bits. -/
def Word.ofNat (n : Nat) : Word := BitVec.ofNat 32 n

@[simp] theorem Word.toNat_ofNat (n : Nat) : (Word.ofNat n).toNat = n % 2 ^ 32 := by
  simp [Word.ofNat]

end Sys2Proof
end

