-- ==== Sys2Proof/Syntax.lean ====
section
/-! DEFINITION. The command set (30_encoding.md R114, opcode_table.json): one constructor per row. A command word carries no operand (R111), so no constructor has an argument. -/

namespace Sys2Proof

/-- HUFFCORE command set 1.0 (R2, R114). -/
inductive Instr where
  /-- NOP, OP 0x00 (R162). -/
  | nop
  /-- CLEAR, OP 0x01 (R163). -/
  | clear
  /-- LOAD_FREQ, OP 0x02 (R181); operands ARG0 = symbol, ARG1 = count. -/
  | loadFreq
  /-- BUILD_TREE, OP 0x03 (R188). -/
  | buildTree
  /-- GEN_CODES, OP 0x04 (R211). -/
  | genCodes
  /-- ENCODE, OP 0x05 (R241); operand ARG0 = symbol count. -/
  | encode
  /-- DECODE, OP 0x06 (R271); operand ARG0 = container length. -/
  | decode
deriving DecidableEq, Repr

end Sys2Proof
end

