-- ==== Sys2Proof/Decode.lean ====
section
/-! DEFINITION. The command decoder and encoder (30_encoding.md R110 to R116): total on every 32-bit word, rejecting by name. -/

namespace Sys2Proof

/-- Why a word names no command (R115). Both complete with IllegalCommand (R164). -/
inductive DecodeError where
  /-- RSV, bits [31:8], is not 0 (R112). -/
  | reservedBits
  /-- RSV is 0 and OP is one of 0x07 to 0xFF (R114). -/
  | unknownOpcode
deriving DecidableEq, Repr

/-- The OP field, bits [7:0] (R110). -/
def opField (w : Word) : BitVec 8 := w.extractLsb' 0 8

/-- The RSV field, bits [31:8] (R110). -/
def rsvField (w : Word) : BitVec 24 := w.extractLsb' 8 24

/-- The opcode map of R114. -/
def opcodeMap (op : BitVec 8) : Option Instr :=
  match op.toNat with
  | 0x00 => some .nop
  | 0x01 => some .clear
  | 0x02 => some .loadFreq
  | 0x03 => some .buildTree
  | 0x04 => some .genCodes
  | 0x05 => some .encode
  | 0x06 => some .decode
  | _ => none

/-- The command a word names, or why it names none (R112, R114, R115). No mode bit changes it (R116). -/
def decode (w : Word) : Except DecodeError Instr :=
  if rsvField w = 0 then
    match opcodeMap (opField w) with
    | some i => .ok i
    | none => .error .unknownOpcode
  else .error .reservedBits

/-- The instruction the decoder reads from the `nbits` bits `w`, numbered as spec/opcode_table.json numbers
them. A command is always one 32-bit word (R110): bits above `nbits` are 0, and a wider number is no command. -/
def decodeTableWord (nbits w : Nat) : Option Instr :=
  if w % 2 ^ nbits < 2 ^ 32 then
    match decode (BitVec.ofNat 32 (w % 2 ^ nbits)) with
    | .ok i => some i
    | .error _ => none
  else none

/-- The OP value of each command (R114). -/
def opcode : Instr → BitVec 8
  | .nop => 0x00
  | .clear => 0x01
  | .loadFreq => 0x02
  | .buildTree => 0x03
  | .genCodes => 0x04
  | .encode => 0x05
  | .decode => 0x06

/-- The command word of a command: RSV = 0, then OP (R110). -/
def encode (i : Instr) : Word := (0 : BitVec 24) ++ opcode i

end Sys2Proof
end

