-- ==== Sys2Proof/Config.lean ====
section
/-! DEFINITION. What an implementation fixes (00_scope.md R9 to R11) and the free values of the model (93_implementation_defined.md section 1). The free values are opaque constants: no proof can see one. -/

namespace Sys2Proof

/-- The parameters of R9. "The model takes these parameters as arguments": every state carries them (log 1). -/
structure Params where
  lMax     : Nat
  symMax   : Nat
  symWords : Nat
  bytBytes : Nat
deriving DecidableEq, Repr

/-- The defaults of R9. -/
def Params.default : Params :=
  { lMax := 256, symMax := 0x10FFFF, symWords := 65536, bytBytes := 262144 }

/-- Node RAM entries, R10: NODE_MAX = 2·L_MAX − 1. -/
def Params.nodeMax (p : Params) : Nat := 2 * p.lMax - 1

/-- The longest code in bits, R11: MAX_CODE_LEN = L_MAX − 1. -/
def Params.maxCodeLen (p : Params) : Nat := p.lMax - 1

/-- HUFF_BASE, R9 and D24: the host bus address of the aperture. OPEN in the spec, so free here (log 2). -/
opaque Config.huffBase : Nat

/-- The host bus address of an aperture offset (R80). No rule of the block depends on it (R84). -/
def Config.busAddress (off : Offset) : Nat := Config.huffBase + off.toNat

/-- R352: what word `i` of SYM holds after the reset numbered `epoch`, until something writes it. Any value (log 3). -/
opaque Config.symAtReset (epoch i : Nat) : Word

/-- R352: what byte `j` of BYT holds after the reset numbered `epoch`, until something writes it. Any value (log 3). -/
opaque Config.bytAtReset (epoch j : Nat) : Byte

/-- R358: the value the `n`-th drawn host read while BUSY = 1 returns. Any value, drawn per read (log 5). -/
opaque Config.busyRead (n : Nat) : Word

end Sys2Proof
end

