-- ==== Sys2Proof/Machine/State.lean ====
section
/-! DEFINITION. The state of HUFFCORE as plain data (10_state.md R30 to R64), the host moves that drive it, why a step can stop, and the state after reset (70_reset_and_hazards.md R351). -/

namespace Sys2Proof.Machine

/-- STATUS.ERR, the status of the last completed command (R38, R311). Codes 7 to 15 do not exist (log 23). -/
inductive Status where
  | ok | invalidInput | malformedContainer | corruptContainer | capacityExceeded | sequenceError | illegalCommand
deriving DecidableEq, Repr

/-- The context phase (R41). -/
inductive Phase where
  | empty | loading | treeBuilt | codesReady
deriving DecidableEq, Repr

/-- The kind of a node record (R52). -/
inductive NodeKind where
  | none | leaf | internal | dummy
deriving DecidableEq, Repr

/-- A node RAM record (R52). `left` and `right` are node indices. -/
structure Node where
  kind   : NodeKind
  weight : Word
  sym    : Word
  left   : Nat
  right  : Nat
deriving DecidableEq, Repr

/-- A code-table RAM record (R56); its `len` field is the length of `bits`. -/
structure CodeEntry where
  sym  : Word
  bits : Bits
deriving DecidableEq, Repr

/-- The command latch: CUR_CMD, CUR_ARG0 and CUR_ARG1 as they stood at issue (R62, R160). -/
structure Latch where
  cmd : Word
  a0  : Word
  a1  : Word
deriving DecidableEq, Repr

/-- The two agents of R18. -/
inductive Agent where
  | host | core
deriving DecidableEq, Repr

/-- What the host, or the platform that drives `rst`, can do to the block: its inputs (logs 7, 10). A width is in bits. -/
inductive HostMove where
  /-- A bus read (R82). -/
  | read (width : Nat) (off : Offset)
  /-- A bus write (R82). -/
  | write (width : Nat) (off : Offset) (value : Word)
  /-- The WAIT pseudo-instruction of R118: read STATUS until BUSY = 0. -/
  | wait
  /-- The CHECK pseudo-instruction of R118: read STATUS, and go on only if ERR = 0. -/
  | check
  /-- The platform asserts `rst` (R350). -/
  | assertRst
  /-- The platform releases `rst` (R350). -/
  | releaseRst
deriving DecidableEq, Repr

/-- Why the machine stops. HUFFCORE has no such reason: "A command never traps, halts the block or leaves it stuck" (R310).
An access the block answers with a bus error is a host move the spec tells the model to refuse: `Refusal.busError`. -/
inductive Fault where
deriving DecidableEq, Repr

/-- The host moves that the spec tells a model to refuse (R333, 93_implementation_defined.md section 3). -/
inductive Refusal where
  /-- A command without a meaning; raised only by an arm of `exec`. Safe. No arm raises it now. -/
  | notModelled (mnemonic : String)
  /-- A host access that is not 32 bits wide or not 4-byte aligned (R83); raised by a host move. Safe: the chip answers with
  a bus error and changes nothing. -/
  | busError
  /-- A host write into the SYM or BYT window while BUSY = 1 (R357); raised by a host move. Safe: the chip goes on with the
  command's result and the written memory at any value. -/
  | dataWriteWhileBusy
  /-- A host access while `rst` is asserted (R350); raised by a host move. Safe: the block takes no access then. -/
  | accessDuringReset
deriving DecidableEq, Repr

/-- The state: the record of R64, the parameters, the `rst` input, and the model's own fields. -/
structure State where
  /-- The parameters of R9; never written (log 1). -/
  cfg        : Params
  /-- The level of the reset input (R350). -/
  rst        : Bool
  irqEn      : Bool
  busy       : Option Latch
  done       : Bool
  cmdDropped : Bool
  err        : Status
  phase      : Phase
  arg0       : Word
  arg1       : Word
  res0       : Word
  res1       : Word
  res2       : Word
  outLen     : Word
  leafCount  : Nat
  total      : Word
  nodeCount  : Nat
  /-- NODE[0 .. NODE_COUNT−1]; records past the count are no state (R52). -/
  nodes      : List Node
  ctCount    : Nat
  /-- CT[0 .. CT_COUNT−1]; records past the count are no state (R56). -/
  ct         : List CodeEntry
  /-- The SYM words written since the last reset, by rising index (logs 3, 4). -/
  sym        : List (Nat × Word)
  /-- The BYT bytes written since the last reset, by rising index (logs 3, 4). -/
  byt        : List Host.Cell
  /-- The model's own: which reset the memories' unwritten contents were drawn at (log 3). -/
  epoch      : Nat
  /-- The model's own: how many reads while busy have drawn a value (log 5). -/
  draws      : Nat
  /-- The model's own: the host moves still to come, oldest first (log 7). -/
  script     : List HostMove
  /-- The model's own: which agent moves next; when it is empty the core moves while a command is latched (log 6). -/
  turns      : List Agent
  /-- The model's own: the values given back to host reads, newest first (log 7). -/
  reads      : List Word
deriving DecidableEq, Repr

/-- The state after reset of a block with parameters `p` (R63, R351). -/
def State.resetWith (p : Params) : State where
  cfg := p
  rst := false
  irqEn := false
  busy := none
  done := false
  cmdDropped := false
  err := .ok
  phase := .empty
  arg0 := 0
  arg1 := 0
  res0 := 0
  res1 := 0
  res2 := 0
  outLen := 0
  leafCount := 0
  total := 0
  nodeCount := 0
  nodes := []
  ctCount := 0
  ct := []
  sym := []
  byt := []
  epoch := 0
  draws := 0
  script := []
  turns := []
  reads := []

/-- The machine right after reset, with the default parameters of R9. -/
def State.reset : State := State.resetWith Params.default

end Sys2Proof.Machine
end

