-- ==== Sys2Proof/Machine/Ops.lean ====
section
/-! DEFINITION. The named operations over memories, RAMs and registers, and the shared issue, completion, failure and reset operations (40_control.md R160, R161; 60_exceptions.md R316, R325; 70_reset_and_hazards.md R350 to R353). -/

namespace Sys2Proof.Machine

/-! ### Memories: lists of (address, value) pairs by rising address -/

/-- What a memory records at address `a`; `none` where nothing has been written since the reset (log 4). -/
def cellFind {α : Type} : List (Nat × α) → Nat → Option α
  | [], _ => none
  | (b, v) :: m, a => if a = b then some v else cellFind m a

/-- Write `v` at address `a`, keeping the rising order. -/
def cellPut {α : Type} (a : Nat) (v : α) : List (Nat × α) → List (Nat × α)
  | [] => [(a, v)]
  | (b, w) :: m =>
    if a < b then (a, v) :: (b, w) :: m
    else if a = b then (a, v) :: m
    else (b, w) :: cellPut a v m

/-- The pairs (a, v0), (a+1, v1), … -/
def cellRun {α : Type} (a : Nat) : List α → List (Nat × α)
  | [] => []
  | v :: vs => (a, v) :: cellRun (a + 1) vs

/-- Write `vs` at addresses 0, 1, …, and keep every other address: how ENCODE writes BYT (R247) and DECODE writes SYM (R282). -/
def cellFill {α : Type} (vs : List α) (m : List (Nat × α)) : List (Nat × α) :=
  cellRun 0 vs ++ m.filter (fun c => vs.length ≤ c.1)

/-- The canonical form of a memory of `size` locations: addresses strictly rising, each below `size`. An unlisted address
records no value (`none`), which no entry can equal (log 4). -/
def Memory.wf {α : Type} (size : Nat) : List (Nat × α) → Bool
  | [] => true
  | [(a, _)] => a < size
  | (a, _) :: (b, v) :: m => a < b && Memory.wf size ((b, v) :: m)

/-- SYM[i] as the core and an idle host read it; any value until something writes it (R59, R352). -/
def symAt (s : State) (i : Nat) : Word :=
  (cellFind s.sym i).getD (Config.symAtReset s.epoch i)

/-- BYT[j] as the core and an idle host read it; any value until something writes it (R60, R352). -/
def bytAt (s : State) (j : Nat) : Byte :=
  (cellFind s.byt j).getD (Config.bytAtReset s.epoch j)

/-- SYM[i] ← v (R85); an index past the configured size is ignored (R81). -/
def symPut (s : State) (i : Nat) (v : Word) : State :=
  if i < s.cfg.symWords then { s with sym := cellPut i v s.sym } else s

/-- BYT[j] ← v (R86); an index past the configured size is ignored (R81). -/
def bytPut (s : State) (j : Nat) (v : Byte) : State :=
  if j < s.cfg.bytBytes then { s with byt := cellPut j v s.byt } else s

/-- SYM[0 .. |vs|−1] ← vs (R282). -/
def symFill (s : State) (vs : List Word) : State := { s with sym := cellFill vs s.sym }

/-- BYT[0 .. |vs|−1] ← vs (R247). -/
def bytFill (s : State) (vs : List Byte) : State := { s with byt := cellFill vs s.byt }

/-! ### Node RAM -/

/-- A record nothing has been written to: kind NONE (R52). -/
def emptyNode : Node := { kind := .none, weight := 0, sym := 0, left := 0, right := 0 }

/-- A LEAF record (R52, R181). -/
def leafNode (sym weight : Word) : Node := { kind := .leaf, weight := weight, sym := sym, left := 0, right := 0 }

/-- The DUMMY record (R52, R190). -/
def dummyNode : Node := { kind := .dummy, weight := 0, sym := 0, left := 0, right := 0 }

/-- An INTERNAL record (R52, R189). -/
def internalNode (weight : Word) (left right : Nat) : Node :=
  { kind := .internal, weight := weight, sym := 0, left := left, right := right }

/-- NODE[n] of a node RAM (log 12: a record past the ones held reads as the empty record; no rule reads one). -/
def nodeGet (ns : List Node) (n : Nat) : Node := (ns[n]?).getD emptyNode

/-- NODE[n] ← r, where `n` is the next free index in every rule that writes one (R181, R189, R190): the RAM then holds
records 0 to n (log 12). -/
def nodePut (ns : List Node) (n : Nat) (r : Node) : List Node :=
  ns.take n ++ List.replicate (n - ns.length) emptyNode ++ [r]

/-- NODE[0 .. k−1]. -/
def nodeSlice (ns : List Node) (k : Nat) : List Node := (List.range k).map (nodeGet ns)

/-! ### Issue, completion and failure -/

/-- The context as CLEAR and DECODE leave it (R163, R272): EMPTY with every count 0. Records past the counts are no state
(R52, R56), so the RAM lists are empty (log 12). -/
def clearContext (s : State) : State :=
  { s with phase := .empty, leafCount := 0, total := 0, nodeCount := 0, nodes := [], ctCount := 0, ct := [] }

/-- A host write of `w` to CMD (R160, R37): latch it, or drop it while a command is latched. -/
def issue (w : Word) (s : State) : State :=
  match s.busy with
  | some _ => { s with cmdDropped := true }
  | none => { s with busy := some { cmd := w, a0 := s.arg0, a1 := s.arg1 }, done := false, err := .ok }

/-- The completion step's own writes (R161): the status is recorded, DONE is set, the latch is emptied. It stands in the place
of trap entry (R325): no mode changes, no vector is taken, and there is nothing to return from (R326). -/
def finish (e : Status) (s : State) : State := { s with err := e, done := true, busy := none }

/-- RES0, RES1 and RES2 are written by every completion (R43). -/
def setRes (r0 r1 r2 : Word) (s : State) : State := { s with res0 := r0, res1 := r1, res2 := r2 }

/-- `complete(r0, r1, r2)` of R14: end with status OK. -/
def complete (r0 r1 r2 : Word) (s : State) : Host.Outcome State Fault Refusal :=
  .next (finish .ok (setRes r0 r1 r2 s))

/-- `fail(E)` of R14 and R316 for the commands that leave OUT_LEN alone. -/
def failWith (e : Status) (s : State) : Host.Outcome State Fault Refusal :=
  .next (finish e (setRes 0 0 0 s))

/-- `fail(E)` of R316 for ENCODE and DECODE, which also set OUT_LEN to 0 (R44). -/
def failOutput (e : Status) (s : State) : Host.Outcome State Fault Refusal :=
  failWith e { s with outLen := 0 }

/-! ### Reset -/

/-- `rst` is asserted (R350 to R353): every register and the context at their reset values, a latched command abandoned, SYM
and BYT at a new draw. The host's own script, schedule and record of reads, and the count of draws, are not the block's. -/
def assertReset (s : State) : State :=
  { State.resetWith s.cfg with
    rst := true, epoch := s.epoch + 1, draws := s.draws, script := s.script, turns := s.turns, reads := s.reads }

/-- `rst` is released (R350): the state is then that of R351. -/
def releaseReset (s : State) : State := { s with rst := false }

end Sys2Proof.Machine
end

