-- ==== Sys2Proof/Machine/CodeTable.lean ====
section
/-! DEFINITION. The code-table generator GEN_CODES and the table text (42_code_table.md R210 to R218; 30_encoding.md R123 to R125). -/

namespace Sys2Proof.Machine

/-! ### The tree walk -/

/-- Walk (R212): pop a (node, path) pair; a LEAF makes an entry, an INTERNAL node pushes right then left, the DUMMY makes none
(R215). Each node of a tree is popped once, so `fuel` = NODE_COUNT passes end it (log 13). -/
def walkTree (ns : List Node) : Nat → List (Nat × Bits) → List CodeEntry
  | 0, _ => []
  | _ + 1, [] => []
  | fuel + 1, (n, c) :: stack =>
    match (nodeGet ns n).kind with
    | .leaf => { sym := (nodeGet ns n).sym, bits := c } :: walkTree ns fuel stack
    | .internal =>
      walkTree ns fuel (((nodeGet ns n).left, c ++ [false]) :: ((nodeGet ns n).right, c ++ [true]) :: stack)
    | .dummy | .none => walkTree ns fuel stack

/-- The code table of the tree rooted at NODE[r], r = |ns| − 1 (R211); a root that is a leaf gets "0" (R214). -/
def codeTable (ns : List Node) : List CodeEntry :=
  if (nodeGet ns (ns.length - 1)).kind = .leaf then [{ sym := (nodeGet ns (ns.length - 1)).sym, bits := [false] }]
  else walkTree ns ns.length [(ns.length - 1, [])]

/-- The longest code length, max over the entries of |bits| (R211). -/
def longestCode (ct : List CodeEntry) : Nat := ct.foldl (fun m e => max m e.bits.length) 0

/-! ### The table text -/

/-- ascii('0') + d for a digit d < 10 (R15). -/
def digitByte (d : Nat) : Byte := BitVec.ofNat 8 (0x30 + d)

/-- The decimal digits of `n`, most significant first, before `acc`; `fuel` digits at most. -/
def decDigits : Nat → Nat → List Byte → List Byte
  | 0, _, acc => acc
  | fuel + 1, n, acc =>
    if n < 10 then digitByte n :: acc else decDigits fuel (n / 10) (digitByte (n % 10) :: acc)

/-- dec(n), the shortest decimal spelling (R14, R125) of a symbol; 32 bits need at most ten digits. -/
def decText (s : Word) : List Byte := decDigits 10 s.toNat []

/-- Chars(c): '0' for each 0 bit and '1' for each 1 bit, in order (R217). -/
def charsText (c : Bits) : List Byte := c.map (fun b => if b then 0x31 else 0x30)

/-- Line(k) of R217: dec(sym), ':', the code. -/
def lineText (e : CodeEntry) : List Byte := decText e.sym ++ 0x3A :: charsText e.bits

/-- TableText (R217): the lines joined by LF, with none after the last. -/
def tableText : List CodeEntry → List Byte
  | [] => []
  | [e] => lineText e
  | e :: e' :: es => lineText e ++ 0x0A :: tableText (e' :: es)

/-! ### GEN_CODES -/

/-- GEN_CODES's writes to the context (R211). -/
def setCodes (ct : List CodeEntry) (s : State) : State :=
  { s with ct := ct, ctCount := ct.length, phase := .codesReady }

/-- The tree GEN_CODES walks: NODE[0..NODE_COUNT−1], whose root is the last record (R47). -/
def treeNodes (s : State) : List Node := nodeSlice s.nodes s.nodeCount

/-- GEN_CODES (R211). -/
def execGenCodes (s : State) : Host.Outcome State Fault Refusal :=
  if s.phase ≠ .treeBuilt then failWith .sequenceError s
  else
    complete (Word.ofNat (codeTable (treeNodes s)).length) (Word.ofNat (longestCode (codeTable (treeNodes s))))
      (Word.ofNat (tableText (codeTable (treeNodes s))).length) (setCodes (codeTable (treeNodes s)) s)

end Sys2Proof.Machine
end

