-- ==== Sys2Proof/Machine/Operands.lean ====
section
/-! DEFINITION. The operand forms: ARG0 and ARG1 as latched at issue (10_state.md R42, 30_encoding.md R111), and the memory operands SYM[0..N−1] and BYT[0..n−1] (20_memory.md R91). -/

namespace Sys2Proof.Machine

/-- a0: ARG0 as latched at issue (R160). With no command latched, ARG0 as an issue would latch it now (log 11). -/
def operand0 (s : State) : Word :=
  match s.busy with
  | some l => l.a0
  | none => s.arg0

/-- a1: ARG1 as latched at issue (R160). With no command latched, ARG1 as an issue would latch it now (log 11). -/
def operand1 (s : State) : Word :=
  match s.busy with
  | some l => l.a1
  | none => s.arg1

/-- The input sequence SYM[0..n−1] of ENCODE, in order (R241). -/
def symSlice (s : State) (n : Nat) : List Word := (List.range n).map (symAt s)

/-- The container BYT[0..n−1] of DECODE, in order (R271). -/
def bytSlice (s : State) (n : Nat) : List Byte := (List.range n).map (bytAt s)

end Sys2Proof.Machine
end

