-- ==== Sys2Proof/Machine/Encoder.lean ====
section
/-! DEFINITION. The encoder ENCODE: consistency scan, bit packer, container header (43_encode_pack.md R240 to R250; 30_encoding.md R119 to R130). -/

namespace Sys2Proof.Machine

/-! ### The consistency scan -/

/-- One step of the scan of R241: the remaining counts after symbol `s`; `none` when no leaf has it (c) or its count is used up (d). -/
def scanOne (s : Word) : List (Word × Nat) → Option (List (Word × Nat))
  | [] => none
  | (t, r) :: rem =>
    if t = s then
      if r = 0 then none else some ((t, r - 1) :: rem)
    else
      match scanOne s rem with
      | none => none
      | some rem' => some ((t, r) :: rem')

/-- The scan of R241 and R243 over the input in order, from the remaining counts `rem`. -/
def scanAll : List Word → List (Word × Nat) → Option (List (Word × Nat))
  | [], rem => some rem
  | s :: ss, rem =>
    match scanOne s rem with
    | none => none
    | some rem' => scanAll ss rem'

/-- rem[j] = NODE[j].weight for j < L, each with its symbol (R241). -/
def loadedCounts (leaves : List Node) : List (Word × Nat) := leaves.map (fun r => (r.sym, r.weight.toNat))

/-- Checks (c), (d) and (e) of R241: the input holds each loaded symbol exactly as often as its count says. -/
def inputMatches (leaves : List Node) (input : List Word) : Bool :=
  match scanAll input (loadedCounts leaves) with
  | none => false
  | some rem => rem.all (fun p => p.2 == 0)

/-! ### Packing -/

/-- Code(s) of R244. Check (c) has passed, so an entry exists; where none does this is the empty code (log 24). -/
def codeOf (ct : List CodeEntry) (s : Word) : Bits :=
  match ct.find? (fun e => e.sym == s) with
  | some e => e.bits
  | none => []

/-- The codes of the input concatenated in order (R244). -/
def codeBits (ct : List CodeEntry) (input : List Word) : Bits := input.flatMap (codeOf ct)

/-- The payload bytes P = ⌈B/8⌉ of a bit count B (R241). -/
def payloadLen (b : Nat) : Nat := (b + 7) / 8

/-- The pad-count 8·⌈B/8⌉ − B (R245). -/
def padOf (b : Nat) : Nat := 8 * payloadLen b - b

/-- A bit string read as a number, first bit most significant. -/
def bitsToNat (c : Bits) : Nat := c.foldl (fun v b => 2 * v + b.toNat) 0

/-- Byte m of the payload (R127): bit 8m + i of the sequence is bit 7 − i of the byte; a bit past the end is 0 (R128). -/
def packByte (bits : Bits) (m : Nat) : Byte :=
  BitVec.ofNat 8 (bitsToNat ((List.range 8).map (fun i => (bits[8 * m + i]?).getD false)))

/-- The payload of a bit sequence, right-padded with zeros (R127, R128). -/
def packBits (c : Bits) : List Byte := (List.range (payloadLen c.length)).map (packByte c)

/-- The 4-byte big-endian table length (R122). -/
def be32 (t : Nat) : List Byte :=
  [BitVec.ofNat 8 (t / 2 ^ 24), BitVec.ofNat 8 (t / 2 ^ 16), BitVec.ofNat 8 (t / 2 ^ 8), BitVec.ofNat 8 t]

/-- The container of a code table and an unpadded bit sequence (R119, R247): pad-count, table length, table text, payload. -/
def container (ct : List CodeEntry) (c : Bits) : List Byte :=
  BitVec.ofNat 8 (padOf c.length) :: (be32 (tableText ct).length ++ tableText ct ++ packBits c)

/-! ### ENCODE -/

/-- The code table ENCODE uses, CT[0..CT_COUNT−1] (R244). -/
def codeEntries (s : State) : List CodeEntry := s.ct.take s.ctCount

/-- ENCODE's unpadded payload bits (R244). -/
def encodeBits (s : State) (n : Nat) : Bits := codeBits (codeEntries s) (symSlice s n)

/-- The first failing check of ENCODE, in the order (a) to (f) of R241. -/
def encodeCheck (s : State) (n : Nat) : Option Status :=
  if s.phase ≠ .codesReady then some .sequenceError
  else if s.cfg.symWords < n then some .capacityExceeded
  else if inputMatches (nodeSlice s.nodes s.leafCount) (symSlice s n) = false then some .invalidInput
  else if s.cfg.bytBytes < 5 + (tableText (codeEntries s)).length + payloadLen (encodeBits s n).length then
    some .capacityExceeded
  else none

/-- ENCODE's writes (R247, R248): the container to BYT[0..n−1], its length to OUT_LEN. -/
def putContainer (c : List Byte) (s : State) : State := { bytFill s c with outLen := Word.ofNat c.length }

/-- ENCODE (R241). -/
def execEncode (s : State) : Host.Outcome State Fault Refusal :=
  match encodeCheck s (operand0 s).toNat with
  | some e => failOutput e s
  | none =>
    complete (Word.ofNat (tableText (codeEntries s)).length)
      (Word.ofNat (encodeBits s (operand0 s).toNat).length)
      (Word.ofNat (padOf (encodeBits s (operand0 s).toNat).length))
      (putContainer (container (codeEntries s) (encodeBits s (operand0 s).toNat)) s)

end Sys2Proof.Machine
end

