-- ==== Sys2Proof/Machine/Flags.lean ====
section
/-! DEFINITION. The flags: the STATUS word and its write-1-to-clear bits (10_state.md R34 to R39), CTRL (R33) and the irq output (60_exceptions.md R322). -/

namespace Sys2Proof.Machine

/-- The status codes of R311. -/
def statusCode : Status → BitVec 4
  | .ok => 0
  | .invalidInput => 1
  | .malformedContainer => 2
  | .corruptContainer => 3
  | .capacityExceeded => 4
  | .sequenceError => 5
  | .illegalCommand => 6

/-- The PHASE encoding of R39. -/
def phaseCode : Phase → BitVec 2
  | .empty => 0
  | .loading => 1
  | .treeBuilt => 2
  | .codesReady => 3

/-- The `kind` encoding of R52. -/
def kindCode : NodeKind → Word
  | .none => 0
  | .leaf => 1
  | .internal => 2
  | .dummy => 3

/-- The STATUS register as a read gives it (R34): PHASE in 9:8, ERR in 7:4, bit 3 reserved, CMD_DROPPED, DONE, BUSY. -/
def statusWord (s : State) : Word :=
  0#22 ++ phaseCode s.phase ++ statusCode s.err ++ 0#1 ++
    BitVec.ofBool s.cmdDropped ++ BitVec.ofBool s.done ++ BitVec.ofBool s.busy.isSome

/-- The CTRL register as a read gives it (R33): IRQ_EN in bit 0, the rest 0. -/
def ctrlWord (s : State) : Word := 0#31 ++ BitVec.ofBool s.irqEn

/-- A write of `v` to CTRL (R33): bit 0 is stored, the rest is ignored. -/
def writeCtrl (v : Word) (s : State) : State := { s with irqEn := v.getLsbD 0 }

/-- A write of `v` to STATUS (R34): bit 1 clears DONE, bit 2 clears CMD_DROPPED, the rest is ignored. -/
def writeStatus (v : Word) (s : State) : State :=
  { s with done := s.done && !v.getLsbD 1, cmdDropped := s.cmdDropped && !v.getLsbD 2 }

/-- The level of the `irq` output (R322): CTRL.IRQ_EN ∧ STATUS.DONE. -/
def irq (s : State) : Bool := s.irqEn && s.done

end Sys2Proof.Machine
end

