-- ==== Sys2Proof/Machine/Aperture.lean ====
section
/-! DEFINITION. The host aperture: what lies at each offset, what a read returns, what a write does, and the host moves (10_state.md R30 to R58; 20_memory.md R80 to R99; 70_reset_and_hazards.md R350 to R359). -/

namespace Sys2Proof.Machine

/-- What lies at a word of the aperture (R30, R81). -/
inductive Loc where
  | id | version | ctrl | status | cmd | arg0 | arg1 | res0 | res1 | res2 | outLen
  | leafCount | total | nodeCount | ctCount | pLmax | pSymmax | pSymwords | pBytbytes
  /-- Reserved and unmapped offsets: read 0, writes ignored (R51). -/
  | reserved
  /-- Word `field` of node record `n` (R53). -/
  | node (n field : Nat)
  /-- Word `field` of code-table record `k` (R57). -/
  | code (k field : Nat)
  /-- SYM[i] (R85). -/
  | sym (i : Nat)
  /-- BYT[j] (R86). -/
  | byt (j : Nat)
deriving DecidableEq, Repr

/-- The register map of R30, by byte offset. -/
def regLoc (a : Nat) : Loc :=
  match a with
  | 0x000 => .id
  | 0x004 => .version
  | 0x008 => .ctrl
  | 0x00C => .status
  | 0x010 => .cmd
  | 0x014 => .arg0
  | 0x018 => .arg1
  | 0x01C => .res0
  | 0x020 => .res1
  | 0x024 => .res2
  | 0x028 => .outLen
  | 0x02C => .leafCount
  | 0x030 => .total
  | 0x034 => .nodeCount
  | 0x038 => .ctCount
  | 0x03C => .pLmax
  | 0x040 => .pSymmax
  | 0x044 => .pSymwords
  | 0x048 => .pBytbytes
  | _ => .reserved

/-- The aperture map of R81, by byte offset `a` < 2^24, a multiple of 4. NODE records are 32 bytes (R53), CT records 64 (R57). -/
def locate (a : Nat) : Loc :=
  if a < 0x001000 then regLoc a
  else if a < 0x100000 then .reserved
  else if a < 0x200000 then .node ((a - 0x100000) / 32) ((a - 0x100000) % 32 / 4)
  else if a < 0x300000 then .code ((a - 0x200000) / 64) ((a - 0x200000) % 64 / 4)
  else if a < 0x400000 then .reserved
  else if a < 0x800000 then .sym ((a - 0x400000) / 4)
  else .byt ((a - 0x800000) / 4)

/-! ### Reads -/

/-- A word of node record `r` (R53). -/
def nodeField (r : Node) : Nat → Word
  | 0 => kindCode r.kind
  | 1 => r.weight
  | 2 => r.sym
  | 3 => Word.ofNat r.left
  | 4 => Word.ofNat r.right
  | _ => 0

/-- BITS_w of a code (R58): bit 31 − i holds code bit 32·w + i, and 0 past the code's end. -/
def codeWord (bits : Bits) (w : Nat) : Word :=
  BitVec.ofNat 32 (bitsToNat ((List.range 32).map (fun i => (bits[32 * w + i]?).getD false)))

/-- A word of code-table record `e` (R57): sym, len, BITS_0 to BITS_7, then 0. -/
def codeField (e : CodeEntry) (f : Nat) : Word :=
  if f = 0 then e.sym
  else if f = 1 then Word.ofNat e.bits.length
  else if f < 10 then codeWord e.bits (f - 2)
  else 0

/-- CT[k] where the table holds it. -/
def codeGet (ct : List CodeEntry) (k : Nat) : CodeEntry := (ct[k]?).getD { sym := 0, bits := [] }

/-- The true value of a location (R31 to R58, R81, R85, R86). The NODE window maps 512 records and the CT window 256. -/
def readLoc (s : State) : Loc → Word
  | .id => 0x48554646
  | .version => 0x00010000
  | .ctrl => ctrlWord s
  | .status => statusWord s
  | .cmd => 0
  | .arg0 => s.arg0
  | .arg1 => s.arg1
  | .res0 => s.res0
  | .res1 => s.res1
  | .res2 => s.res2
  | .outLen => s.outLen
  | .leafCount => Word.ofNat s.leafCount
  | .total => s.total
  | .nodeCount => Word.ofNat s.nodeCount
  | .ctCount => Word.ofNat s.ctCount
  | .pLmax => Word.ofNat s.cfg.lMax
  | .pSymmax => Word.ofNat s.cfg.symMax
  | .pSymwords => Word.ofNat s.cfg.symWords
  | .pBytbytes => Word.ofNat s.cfg.bytBytes
  | .reserved => 0
  | .node n f => if n < s.nodeCount ∧ n < 512 then nodeField (nodeGet s.nodes n) f else 0
  | .code k f => if k < s.ctCount ∧ k < 256 then codeField (codeGet s.ct k) f else 0
  | .sym i => if i < s.cfg.symWords then symAt s i else 0
  | .byt j => if j < s.cfg.bytBytes then (bytAt s j).setWidth 32 else 0

/-- The locations that read their true value at all times: those R358 lists, and the reserved offsets, which read 0 busy or not
(R51, R81; 93_implementation_defined.md section 2: "Deterministic, not any value"). CMD while busy is a draw (log 5). -/
def alwaysTrue : Loc → Bool
  | .id | .version | .ctrl | .status | .arg0 | .arg1 | .pLmax | .pSymmax | .pSymwords | .pBytbytes | .reserved => true
  | .cmd | .res0 | .res1 | .res2 | .outLen | .leafCount | .total | .nodeCount | .ctCount
  | .node _ _ | .code _ _ | .sym _ | .byt _ => false

/-- R358: whether a read of a location is a draw. -/
def isDrawn (s : State) (l : Loc) : Bool := s.busy.isSome && !alwaysTrue l

/-- The value a host read of a location returns: any value for a drawn read, else the true one (R358). -/
def readValue (s : State) (l : Loc) : Word := if isDrawn s l then Config.busyRead s.draws else readLoc s l

/-- A host read: it has no side effect on the block (R90). The value goes to the host, and a drawn value is used up (log 5). -/
def hostRead (l : Loc) (s : State) : State :=
  { s with reads := readValue s l :: s.reads, draws := if isDrawn s l then s.draws + 1 else s.draws }

/-! ### Writes -/

/-- Whether a location is in the SYM or BYT window, at any index (R357). -/
def inDataWindow : Loc → Bool
  | .sym _ | .byt _ => true
  | .id | .version | .ctrl | .status | .cmd | .arg0 | .arg1 | .res0 | .res1 | .res2 | .outLen | .leafCount | .total
  | .nodeCount | .ctCount | .pLmax | .pSymmax | .pSymwords | .pBytbytes | .reserved | .node _ _ | .code _ _ => false

/-- What a host write of `v` to a location does (R90): store, issue, clear, or nothing. -/
def writeLoc (l : Loc) (v : Word) (s : State) : State :=
  match l with
  | .ctrl => writeCtrl v s
  | .status => writeStatus v s
  | .cmd => issue v s
  | .arg0 => { s with arg0 := v }
  | .arg1 => { s with arg1 := v }
  | .sym i => symPut s i v
  | .byt j => bytPut s j (v.setWidth 8)
  | .id | .version | .res0 | .res1 | .res2 | .outLen | .leafCount | .total | .nodeCount | .ctCount | .pLmax | .pSymmax
  | .pSymwords | .pBytbytes | .reserved | .node _ _ | .code _ _ => s

/-! ### Host moves -/

/-- R82 and R83: the block serves 32-bit accesses at multiples of 4. -/
def busAccepts (width : Nat) (off : Offset) : Bool := width == 32 && off.toNat % 4 == 0

/-- A read move on a block out of reset. -/
def busRead (width : Nat) (off : Offset) (s : State) : Host.Outcome State Fault Refusal :=
  if busAccepts width off then .next (hostRead (locate off.toNat) s) else .refused .busError

/-- A write move on a block out of reset. -/
def busWrite (width : Nat) (off : Offset) (v : Word) (s : State) : Host.Outcome State Fault Refusal :=
  if busAccepts width off then
    if s.busy.isSome && inDataWindow (locate off.toNat) then .refused .dataWriteWhileBusy
    else .next (writeLoc (locate off.toNat) v s)
  else .refused .busError

/-- WAIT (R118): one read of STATUS; while it shows BUSY = 1 the move is still to come. -/
def pollBusy (s : State) : State :=
  if (statusWord s).getLsbD 0 then { hostRead .status s with script := .wait :: s.script } else hostRead .status s

/-- CHECK (R118): one read of STATUS; the script goes on only if ERR = 0. -/
def pollErr (s : State) : State :=
  if (statusWord s).extractLsb' 4 4 = 0 then hostRead .status s else { hostRead .status s with script := [] }

/-- One move of the host or the platform, already taken off the script. While `rst` is asserted the host has no access (R350);
reset wins over anything it coincides with (R353), so it stands in the script where that would have stood (log 10). -/
def hostMove (m : HostMove) (s : State) : Host.Outcome State Fault Refusal :=
  match m with
  | .assertRst => .next (assertReset s)
  | .releaseRst => .next (releaseReset s)
  | .read width off => if s.rst then .refused .accessDuringReset else busRead width off s
  | .write width off v => if s.rst then .refused .accessDuringReset else busWrite width off v s
  | .wait => if s.rst then .refused .accessDuringReset else .next (pollBusy s)
  | .check => if s.rst then .refused .accessDuringReset else .next (pollErr s)

/-- The host's turn: its next move, or nothing when its script is over (R363). -/
def hostTurn (s : State) : Host.Outcome State Fault Refusal :=
  match s.script with
  | [] => .next s
  | m :: ms => hostMove m { s with script := ms }

end Sys2Proof.Machine
end

