-- ==== Sys2Proof/Machine/Control.lean ====
section
/-! DEFINITION. The control commands NOP and CLEAR, and the completion of an illegal command word (40_control.md R162 to R164). -/

namespace Sys2Proof.Machine

/-- NOP (R162). -/
def execNop (s : State) : Host.Outcome State Fault Refusal := complete 0 0 0 s

/-- CLEAR (R163). -/
def execClear (s : State) : Host.Outcome State Fault Refusal := complete 0 0 0 (clearContext s)

/-- A latched word that names no command (R164, R319). -/
def completeIllegal (s : State) : Host.Outcome State Fault Refusal := failWith .illegalCommand s

end Sys2Proof.Machine
end

