-- ==== Sys2Proof/Machine/Decoder.lean ====
section
/-! DEFINITION. The decoder DECODE: container header, table parser, decode trie, bit unpacker and matcher (44_decode_unpack.md R270 to R286; 30_encoding.md R119 to R129). -/

namespace Sys2Proof.Machine

/-! ### The table text -/

/-- DIGIT of R123. -/
def isDigit (b : Byte) : Bool := 0x30 ≤ b.toNat && b.toNat ≤ 0x39

/-- BIT of R123. -/
def isBit (b : Byte) : Bool := b == 0x30 || b == 0x31

/-- The value of a DIGIT run (R126), unbounded. -/
def decimalValue (ds : List Byte) : Nat := ds.foldl (fun v d => 10 * v + (d.toNat - 0x30)) 0

/-- The text cut at every LF: n LFs give n + 1 lines. -/
def splitLines : List Byte → List (List Byte)
  | [] => [[]]
  | b :: bs =>
    if b = 0x0A then [] :: splitLines bs
    else
      match splitLines bs with
      | [] => [[b]]
      | l :: ls => (b :: l) :: ls

/-- `entry` of R123: one or more digits, ':', one or more bits. -/
def parseEntry (line : List Byte) : Option (Nat × Bits) :=
  match line.dropWhile isDigit with
  | [] => none
  | c :: code =>
    if c = 0x3A ∧ line.takeWhile isDigit ≠ [] ∧ code ≠ [] ∧ code.all isBit = true then
      some (decimalValue (line.takeWhile isDigit), code.map (fun b => b == 0x31))
    else none

/-- Every line an entry, or nothing. -/
def parseLines : List (List Byte) → Option (List (Nat × Bits))
  | [] => some []
  | l :: ls =>
    match parseEntry l with
    | none => none
    | some e =>
      match parseLines ls with
      | none => none
      | some es => some (e :: es)

/-- ParseTable (R275): the whole text must match the grammar `table` of R123. -/
def parseTable (text : List Byte) : Option (List (Nat × Bits)) := parseLines (splitLines text)

/-! ### The decode trie -/

/-- The decode trie (R277). `absent` is a missing child; node numbers are not observable, so only their count is kept (log 14). -/
inductive Trie where
  | absent
  | leaf (sym : Word)
  | node (child0 child1 : Trie)
deriving DecidableEq, Repr

/-- child_b of a trie node (R277). -/
def trieChild (b : Bool) : Trie → Trie
  | .node c0 c1 => if b then c1 else c0
  | .leaf _ | .absent => .absent

/-- child_b of a trie node ← u (R277). -/
def trieSetChild (b : Bool) (u : Trie) : Trie → Trie
  | .node c0 c1 => if b then .node c0 u else .node u c1
  | .leaf v => .leaf v
  | .absent => .absent

/-- Insert(v, c) of R277 below the INTERNAL node `t`, with `count` trie nodes made so far: the new subtree and count, or the
status of the first failing check. -/
def trieInsert (nodeMax : Nat) (v : Word) : Bits → Trie → Nat → Except Status (Trie × Nat)
  | [], t, count => .ok (t, count)
  | b :: c, t, count =>
    match c with
    | [] =>
      match trieChild b t with
      | .absent => if count = nodeMax then .error .capacityExceeded else .ok (trieSetChild b (.leaf v) t, count + 1)
      | .leaf _ | .node _ _ => .error .malformedContainer
    | b' :: c' =>
      match trieChild b t with
      | .leaf _ => .error .malformedContainer
      | .absent =>
        if count = nodeMax then .error .capacityExceeded
        else
          match trieInsert nodeMax v (b' :: c') (.node .absent .absent) (count + 1) with
          | .error e => .error e
          | .ok (u, k) => .ok (trieSetChild b u t, k)
      | .node u0 u1 =>
        match trieInsert nodeMax v (b' :: c') (.node u0 u1) count with
        | .error e => .error e
        | .ok (u, k) => .ok (trieSetChild b u t, k)

/-- The entry checks (e1) to (e5) of R276, entries in order; `seen` holds the values of the earlier entries. -/
def addEntries (p : Params) : List (Nat × Bits) → List Nat → Trie → Nat → Except Status Trie
  | [], _, t, _ => .ok t
  | (v, c) :: es, seen, t, count =>
    if p.symMax < v then .error .malformedContainer
    else if p.maxCodeLen < c.length then .error .capacityExceeded
    else if p.lMax ≤ seen.length then .error .capacityExceeded
    else if seen.contains v then .error .malformedContainer
    else
      match trieInsert p.nodeMax (Word.ofNat v) c t count with
      | .error e => .error e
      | .ok (t', count') => addEntries p es (v :: seen) t' count'

/-- BuildTrie (R276, R277): from one INTERNAL root with no children, count 1. -/
def buildTrie (p : Params) (es : List (Nat × Bits)) : Except Status Trie :=
  addEntries p es [] (.node .absent .absent) 1

/-! ### Unpacking and matching -/

/-- The eight bits of a payload byte, most significant first (R127). -/
def byteBits (b : Byte) : Bits := (List.range 8).map (fun i => b.getLsbD (7 - i))

/-- Unpack (R278): the payload's bits in order. -/
def unpackBits (payload : List Byte) : Bits := payload.flatMap byteBits

/-- WalkBits (R279, R280): `cur` is the node the walk stands at below the root, `none` at the root. `none` is CorruptContainer. -/
def walkBits (root : Trie) : Option Trie → Bits → Option (List Word)
  | none, [] => some []
  | some _, [] => none
  | cur, b :: bs =>
    match trieChild b (cur.getD root) with
    | .absent => none
    | .leaf v =>
      match walkBits root none bs with
      | none => none
      | some out => some (v :: out)
    | .node u0 u1 => walkBits root (some (.node u0 u1)) bs

/-! ### DECODE -/

/-- What a container holds: its pad-count, its table length T and its symbols. -/
structure Decoded where
  pad      : Nat
  tableLen : Nat
  symbols  : List Word
deriving DecidableEq, Repr

/-- BE32 of R14: the first byte is the most significant. -/
def be32Value (b1 b2 b3 b4 : Byte) : Nat :=
  b1.toNat * 2 ^ 24 + b2.toNat * 2 ^ 16 + b3.toNat * 2 ^ 8 + b4.toNat

/-- Steps (f) to (h) of R271 on the trie, pad-count and payload. -/
def decodePayload (p : Params) (root : Trie) (pad : Nat) (payload : List Byte) : Except Status (List Word) :=
  if 8 * payload.length < pad then .error .corruptContainer
  else
    match walkBits root none ((unpackBits payload).take (8 * payload.length - pad)) with
    | none => .error .corruptContainer
    | some out => if p.symWords < out.length then .error .capacityExceeded else .ok out

/-- Steps (d) and (e) of R271: parse the table text, then build the trie. -/
def decodeTable (p : Params) (text : List Byte) : Except Status Trie :=
  match parseTable text with
  | none => .error .malformedContainer
  | some es => buildTrie p es

/-- Steps (d) to (h) of R271 on the bytes after the header, of which the first `t` are the table text. -/
def decodeBody (p : Params) (pad t : Nat) (rest : List Byte) : Except Status Decoded :=
  match decodeTable p (rest.take t) with
  | .error e => .error e
  | .ok root =>
    match decodePayload p root pad (rest.drop t) with
    | .error e => .error e
    | .ok out => .ok { pad := pad, tableLen := t, symbols := out }

/-- Steps (b) to (h) of R271 on the container's bytes: the first failing check's status, or what the container holds. -/
def decodeContainer (p : Params) (c : List Byte) : Except Status Decoded :=
  match c with
  | pad :: b1 :: b2 :: b3 :: b4 :: rest =>
    if rest.length < be32Value b1 b2 b3 b4 then .error .malformedContainer
    else decodeBody p pad.toNat (be32Value b1 b2 b3 b4) rest
  | _ => .error .malformedContainer

/-- Step (a) of R271, then the rest on BYT[0..n−1]. -/
def decodeResult (s : State) (n : Nat) : Except Status Decoded :=
  if s.cfg.bytBytes < n then .error .capacityExceeded else decodeContainer s.cfg (bytSlice s n)

/-- DECODE's writes on success (R282, R283): SYM[0..|out|−1] and OUT_LEN. -/
def putSymbols (out : List Word) (s : State) : State := { symFill s out with outLen := Word.ofNat out.length }

/-- DECODE (R271): the context is cleared first, whatever the outcome (R272). -/
def execDecode (s : State) : Host.Outcome State Fault Refusal :=
  match decodeResult s (operand0 s).toNat with
  | .error e => failOutput e (clearContext s)
  | .ok d =>
    complete (Word.ofNat d.symbols.length) (Word.ofNat d.tableLen) (Word.ofNat d.pad)
      (putSymbols d.symbols (clearContext s))

end Sys2Proof.Machine
end

