-- ==== Sys2Proof/Machine/TreeBuilder.lean ====
section
/-! DEFINITION. The tree builder: LOAD_FREQ and BUILD_TREE (41_tree_builder.md R180 to R191). -/

namespace Sys2Proof.Machine

/-! ### LOAD_FREQ -/

/-- The first failing check of LOAD_FREQ, in the order (a) to (f) of R181 and R182. -/
def loadFreqCheck (s : State) (a0 a1 : Word) : Option Status :=
  if s.phase ≠ .empty ∧ s.phase ≠ .loading then some .sequenceError
  else if s.cfg.symMax < a0.toNat then some .invalidInput
  else if a1 = 0 then some .invalidInput
  else if 0 < s.leafCount ∧ a0.toNat ≤ (nodeGet s.nodes (s.leafCount - 1)).sym.toNat then some .invalidInput
  else if s.leafCount = s.cfg.lMax then some .capacityExceeded
  else if 0xFFFFFFFF < s.total.toNat + a1.toNat then some .capacityExceeded
  else none

/-- LOAD_FREQ's writes to the context (R181): one more leaf. -/
def loadLeaf (a0 a1 : Word) (s : State) : State :=
  { s with
    nodes := nodePut s.nodes s.leafCount (leafNode a0 a1)
    leafCount := s.leafCount + 1
    nodeCount := s.leafCount + 1
    total := s.total + a1
    phase := .loading }

/-- LOAD_FREQ (R181). -/
def execLoadFreq (s : State) : Host.Outcome State Fault Refusal :=
  match loadFreqCheck s (operand0 s) (operand1 s) with
  | some e => failWith e s
  | none =>
    complete (Word.ofNat (s.leafCount + 1)) (s.total + operand1 s) 0 (loadLeaf (operand0 s) (operand1 s) s)

/-! ### The priority queue -/

/-- key(a) < key(b) of R185: by weight, then by node index. -/
def keyLt (ns : List Node) (a b : Nat) : Bool :=
  (nodeGet ns a).weight.toNat < (nodeGet ns b).weight.toNat ||
    ((nodeGet ns a).weight.toNat == (nodeGet ns b).weight.toNat && a < b)

/-- The index with the least key in a queue of node indices (R185). -/
def queueMin (ns : List Node) : List Nat → Option Nat
  | [] => none
  | i :: q =>
    match queueMin ns q with
    | none => some i
    | some j => if keyLt ns j i then some j else some i

/-- Pop (R185): the index with the least key, and the queue without it. -/
def popMin (ns : List Node) (q : List Nat) : Option (Nat × List Nat) :=
  match queueMin ns q with
  | none => none
  | some a => some (a, q.erase a)

/-! ### BUILD_TREE -/

/-- One pass of Merge (R189): pop two, make their parent at the next free index, first popped left (R187). `none` when fewer
than two indices are left. -/
def mergeStep (ns : List Node) (q : List Nat) : Option (List Node × List Nat) :=
  match popMin ns q with
  | none => none
  | some (a, q1) =>
    match popMin ns q1 with
    | none => none
    | some (b, q2) =>
      some (ns ++ [internalNode ((nodeGet ns a).weight + (nodeGet ns b).weight) a b], q2 ++ [ns.length])

/-- The loop of Merge (R189), at most `fuel` passes. -/
def mergeLoop : Nat → List Node → List Nat → List Node
  | 0, ns, _ => ns
  | fuel + 1, ns, q =>
    match mergeStep ns q with
    | none => ns
    | some (ns', q') => mergeLoop fuel ns' q'

/-- Merge (R189) of the leaves `ls`: the loop runs L − 1 times. -/
def mergeTree (ls : List Node) : List Node := mergeLoop (ls.length - 1) ls (List.range ls.length)

/-- SingleSymbol (R190): the leaf, the dummy and the root. -/
def singleTree (leaf : Node) : List Node := [leaf, dummyNode, internalNode leaf.weight 0 1]

/-- The node RAM BUILD_TREE leaves (R188): from NODE[0..L−1] by R190 for L = 1, else by R189. -/
def builtNodes (s : State) : List Node :=
  if s.leafCount = 1 then singleTree (nodeGet s.nodes 0) else mergeTree (nodeSlice s.nodes s.leafCount)

/-- BUILD_TREE's writes to the context (R188). -/
def setTree (ns : List Node) (s : State) : State :=
  { s with nodes := ns, nodeCount := ns.length, phase := .treeBuilt }

/-- BUILD_TREE (R188). -/
def execBuildTree (s : State) : Host.Outcome State Fault Refusal :=
  if s.phase = .empty then failWith .invalidInput s
  else if s.phase ≠ .loading then failWith .sequenceError s
  else
    complete (Word.ofNat ((builtNodes s).length - 1)) (Word.ofNat (builtNodes s).length)
      (nodeGet (builtNodes s) ((builtNodes s).length - 1)).weight (setTree (builtNodes s) s)

end Sys2Proof.Machine
end

