-- ==== Sys2Proof/Machine/Sequencer.lean ====
section
/-! DEFINITION. The core sequencer: fetching the latched command word, decoding it and completing it (40_control.md R161), and whose turn it is (00_scope.md R18, 60_exceptions.md R321). -/

namespace Sys2Proof.Machine

/-- Complete the latched command word (R161): run the command it names, or complete it as illegal (R164). -/
def completeWord (w : Word) (s : State) : Host.Outcome State Fault Refusal :=
  match decode w with
  | .ok i => exec i s
  | .error _ => completeIllegal s

/-- The core's turn (R161): complete the latched command; with none, or with `rst` asserted, it does nothing (R332, R350). -/
def coreTurn (s : State) : Host.Outcome State Fault Refusal :=
  if s.rst then .next s
  else
    match s.busy with
    | none => .next s
    | some l => completeWord l.cmd s

/-- The agent that moves next (log 6): the head of the schedule; when the schedule is over, the core while a command is
latched, else the host, so that a busy command always completes (R361). -/
def nextAgent (s : State) : Agent :=
  match s.turns with
  | a :: _ => a
  | [] => if s.busy.isSome && !s.rst then .core else .host

/-- The state with this turn taken off the schedule. -/
def takeTurn (s : State) : State := { s with turns := s.turns.tail }

/-- One turn of an agent. -/
def agentTurn (a : Agent) (s : State) : Host.Outcome State Fault Refusal :=
  match a with
  | .host => hostTurn s
  | .core => coreTurn s

/-- The state `s` with the word `w` latched as a CMD write to an idle block out of reset latches it (R160), and the core's turn
next (log 17). -/
def latchWord (s : State) (w : Word) : State :=
  { issue w { s with rst := false, busy := none } with turns := .core :: s.turns }

end Sys2Proof.Machine
end

