-- ==== Sys2Proof/Machine/Step.lean ====
section
/-! DEFINITION. The step: one turn of one agent, and the placing of a command word where the next step fetches it. -/

namespace Sys2Proof.Machine

/-- One step: the agent whose turn it is moves (R18, R92, R161). -/
def step (s : State) : Host.Outcome State Fault Refusal := agentTurn (nextAgent s) (takeTurn s)

/-- `s` with the instruction word `w` of `nbits` bits latched, so that the next step completes exactly it (log 17). -/
def State.withFetchWord (s : State) (nbits w : Nat) : State := latchWord s (BitVec.ofNat 32 (w % 2 ^ nbits))

end Sys2Proof.Machine
end

