-- ==== Sys2Proof/Machine/Script.lean ====
section
/-! DEFINITION. The host script notation (30_encoding.md R117, R118): register names as offsets, and the pseudo-instructions as their exact expansions into host moves. -/

namespace Sys2Proof.Machine

/-- The offsets of R30 a script writes or reads by name. -/
def offCtrl : Offset := 0x008
def offStatus : Offset := 0x00C
def offCmd : Offset := 0x010
def offArg0 : Offset := 0x014
def offArg1 : Offset := 0x018
def offRes0 : Offset := 0x01C
def offRes1 : Offset := 0x020
def offRes2 : Offset := 0x024
def offOutLen : Offset := 0x028

/-- `NODE[n].<field>`, word `f` of the record (R53). -/
def offNode (n f : Nat) : Offset := BitVec.ofNat 24 (0x100000 + 32 * n + 4 * f)

/-- `CT[k].<field>`, word `f` of the record (R57). -/
def offCode (k f : Nat) : Offset := BitVec.ofNat 24 (0x200000 + 64 * k + 4 * f)

/-- `SYM[i]` (R85). -/
def offSym (i : Nat) : Offset := BitVec.ofNat 24 (0x400000 + 4 * i)

/-- `BYT[j]` (R86). -/
def offByt (j : Nat) : Offset := BitVec.ofNat 24 (0x800000 + 4 * j)

/-- `WR <loc>, <value>`: one 32-bit host write (R117). -/
def wr (off : Offset) (v : Word) : HostMove := .write 32 off v

/-- `RD <loc>`: one 32-bit host read (R117). -/
def rd (off : Offset) : HostMove := .read 32 off

/-- `CMD op` (R118): write CMD, then WAIT. -/
def scrCmd (op : Word) : List HostMove := [wr offCmd op, .wait]

/-- `NOP.W` (R118). -/
def scrNop : List HostMove := scrCmd 0x00

/-- `CLR` (R118). -/
def scrClr : List HostMove := scrCmd 0x01

/-- `LOADF s, c` (R118). -/
def scrLoadf (s c : Word) : List HostMove := [wr offArg0 s, wr offArg1 c] ++ scrCmd 0x02

/-- `BUILD` (R118). -/
def scrBuild : List HostMove := scrCmd 0x03

/-- `GEN` (R118). -/
def scrGen : List HostMove := scrCmd 0x04

/-- `ENC n` (R118). -/
def scrEnc (n : Word) : List HostMove := wr offArg0 n :: scrCmd 0x05

/-- `DEC n` (R118). -/
def scrDec (n : Word) : List HostMove := wr offArg0 n :: scrCmd 0x06

/-- `PUTS i, v1, v2, …` (R118). -/
def scrPuts : Nat → List Word → List HostMove
  | _, [] => []
  | i, v :: vs => wr (offSym i) v :: scrPuts (i + 1) vs

/-- `PUTB j, b1, b2, …` (R118). -/
def scrPutb : Nat → List Word → List HostMove
  | _, [] => []
  | j, v :: vs => wr (offByt j) v :: scrPutb (j + 1) vs

end Sys2Proof.Machine
end

