-- ==== Sys2Proof/WellFormed.lean ====
section
/-! DEFINITION. The well-formedness checks: of a command (it has no field, so every command is well-formed), of a host move (20_memory.md R82) and of the parameters (00_scope.md R9). -/

namespace Sys2Proof

/-- A command word carries no operand (R111), so there is nothing to check in a command. -/
def Instr.wf : Instr → Bool
  | .nop | .clear | .loadFreq | .buildTree | .genCodes | .encode | .decode => true

/-- R82: a host access is 32 bits wide, at an offset that is a multiple of 4. -/
def Machine.HostMove.wf : Machine.HostMove → Bool
  | .read width off => width == 32 && off.toNat % 4 == 0
  | .write width off _ => width == 32 && off.toNat % 4 == 0
  | .wait | .check | .assertRst | .releaseRst => true

/-- The legal ranges of R9. -/
def Params.legal (p : Params) : Bool :=
  2 ≤ p.lMax && p.lMax ≤ 256 && 1 ≤ p.symMax && p.symMax ≤ 0x10FFFF &&
  1 ≤ p.symWords && p.symWords ≤ 2 ^ 20 && 5 ≤ p.bytBytes && p.bytBytes ≤ 2 ^ 21

end Sys2Proof
end

