-- ==== Sys2Proof/Safety.lean ====
section
/-! DEFINITION. What claims speak of: the invariants of the state (10_state.md R50, R55; 70_reset_and_hazards.md R350), the host protocol (R355 to R359), and the clear specifications that claims compare the machine with: the table grammar (30_encoding.md R123), the greedy matcher (44_decode_unpack.md R284) and Huffman optimality (41_tree_builder.md R192). -/

namespace Sys2Proof.Safety

open Sys2Proof.Machine

/-! ### Invariants -/

/-- While a command is latched DONE = 0 and ERR = OK (R36, R38, R160). -/
abbrev LatchOk (s : State) : Prop := s.busy.isSome = true → s.done = false ∧ s.err = .ok

/-- While `rst` is asserted every register and the context stand at their reset values (R350, R351). -/
abbrev ResetOk (s : State) : Prop :=
  s.rst = true →
    s = { State.resetWith s.cfg with
          rst := true, epoch := s.epoch, draws := s.draws, script := s.script, turns := s.turns, reads := s.reads }

/-- Both memories keep their canonical form. -/
abbrev MemoryOk (s : State) : Prop :=
  Memory.wf s.cfg.symWords s.sym = true ∧ Memory.wf s.cfg.bytBytes s.byt = true

/-- R50, LOADING: leaves with strictly ascending symbols, within the limits of R181, whose counts sum to TOTAL. -/
abbrev LeavesOk (p : Params) (leaves : List Node) (total : Nat) : Prop :=
  1 ≤ leaves.length ∧ leaves.length ≤ p.lMax ∧
  (∀ r ∈ leaves, r = leafNode r.sym r.weight ∧ r.sym.toNat ≤ p.symMax ∧ 1 ≤ r.weight.toNat) ∧
  leaves.Pairwise (fun a b => a.sym.toNat < b.sym.toNat) ∧
  total = (leaves.map (fun r => r.weight.toNat)).sum

/-- Node `p` is the INTERNAL parent of node `n`. -/
def isParent (ns : List Node) (n p : Nat) : Bool :=
  (nodeGet ns p).kind == .internal && ((nodeGet ns p).left == n || (nodeGet ns p).right == n)

/-- The parents of node `n` in a node RAM. -/
def parentsOf (ns : List Node) (n : Nat) : List Nat := (List.range ns.length).filter (isParent ns n)

/-- The kind R55 gives node `n` of a tree with `leaves` leaves. -/
def kindAt (leaves n : Nat) : NodeKind :=
  if n < leaves then .leaf else if leaves = 1 ∧ n = 1 then .dummy else .internal

/-- R55: one binary tree rooted at the last record, children below their parent, weights summed without wrap. -/
abbrev TreeOk (ns : List Node) (leaves : Nat) : Prop :=
  ns.length = (if leaves = 1 then 3 else 2 * leaves - 1) ∧
  (∀ n ∈ List.range ns.length, (nodeGet ns n).kind = kindAt leaves n) ∧
  (∀ n ∈ List.range ns.length, (nodeGet ns n).kind = .dummy → nodeGet ns n = dummyNode) ∧
  (∀ n ∈ List.range ns.length, (nodeGet ns n).kind = .internal →
    (nodeGet ns n).sym = 0 ∧ (nodeGet ns n).left ≠ (nodeGet ns n).right ∧
    (nodeGet ns n).left < n ∧ (nodeGet ns n).right < n ∧
    (nodeGet ns n).weight.toNat =
      (nodeGet ns (nodeGet ns n).left).weight.toNat + (nodeGet ns (nodeGet ns n).right).weight.toNat) ∧
  (∀ n ∈ List.range (ns.length - 1), (parentsOf ns n).length = 1)

/-- R50, TREE_BUILT: the loaded leaves and a tree over them. -/
abbrev BuiltOk (s : State) : Prop :=
  s.leafCount ≤ s.nodes.length ∧ s.nodes.length = s.nodeCount ∧
  LeavesOk s.cfg (s.nodes.take s.leafCount) s.total.toNat ∧ TreeOk s.nodes s.leafCount

/-- The context invariants of R50, per phase; in CODES_READY the table is the one R211 makes of the tree. -/
def ContextOk (s : State) : Prop :=
  match s.phase with
  | .empty =>
    s.leafCount = 0 ∧ s.total = 0 ∧ s.nodeCount = 0 ∧ s.nodes = [] ∧ s.ctCount = 0 ∧ s.ct = []
  | .loading =>
    s.nodes.length = s.leafCount ∧ s.nodeCount = s.leafCount ∧ LeavesOk s.cfg s.nodes s.total.toNat ∧
    s.ctCount = 0 ∧ s.ct = []
  | .treeBuilt => BuiltOk s ∧ s.ctCount = 0 ∧ s.ct = []
  | .codesReady => BuiltOk s ∧ s.ct = codeTable s.nodes ∧ s.ctCount = s.ct.length ∧ s.ctCount = s.leafCount

/-! ### The host protocol -/

/-- A move that the protocol of R355 to R359 allows in state `s`: no CMD write and no data write while busy, and no read while
busy but of the registers R358 lists. -/
def keepsProtocol (s : State) : HostMove → Bool
  | .read _ off => !isDrawn s (locate off.toNat)
  | .write _ off _ => !(s.busy.isSome && (inDataWindow (locate off.toNat) || locate off.toNat == .cmd))
  | .wait | .check | .assertRst | .releaseRst => true

/-- The end of a run (R363): the script's last access has been performed and no command is latched. -/
def runOver (s : State) : Bool := s.script.isEmpty && s.busy.isNone

/-- A move the block takes only while `rst` is released (R350). -/
def isAccess : HostMove → Bool
  | .read _ _ | .write _ _ _ | .wait | .check => true
  | .assertRst | .releaseRst => false

/-! ### The table grammar of R123 -/

/-- The text of an `entry` of R123: a DIGIT run, ':', and a code in '0' and '1'. -/
def entryText (digits : List Byte) (code : Bits) : List Byte := digits ++ 0x3A :: charsText code

/-- The texts of entries joined by LF (R123). -/
def joinLines : List (List Byte) → List Byte
  | [] => []
  | [l] => l
  | l :: l' :: ls => l ++ 0x0A :: joinLines (l' :: ls)

/-- `text` is a `table` of R123 whose entries are `es`: each a non-empty DIGIT run with its decimal value (R126) and a
non-empty code. -/
def IsTable (text : List Byte) (es : List (Nat × Bits)) : Prop :=
  ∃ ds : List (List Byte),
    ds.length = es.length ∧ es ≠ [] ∧
    (∀ d ∈ ds, d ≠ [] ∧ d.all isDigit = true) ∧
    (∀ e ∈ es, e.2 ≠ []) ∧
    es.map (fun e => e.1) = ds.map decimalValue ∧
    text = joinLines (List.zipWith (fun d e => entryText d e.2) ds es)

/-! ### The entry checks of R276 and R277, without a trie -/

/-- The non-empty prefixes of a code, shortest first: the nodes its path passes below the root (R277). -/
def codeSteps (c : Bits) : List Bits := (List.range c.length).map (fun i => c.take (i + 1))

/-- The trie nodes that codes need (R277): the root, and one for each different non-empty prefix. -/
def trieSize (codes : List Bits) : Nat := 1 + (codes.flatMap codeSteps).dedup.length

/-- R277 at bit `i` of the code `c`, after the codes `codes`: where a node exists, it is an error at the last bit (c equals or is a
proper prefix of an earlier code) and at an earlier code's end (that code is a proper prefix of c); where none exists, one more must
fit beside those made so far. -/
def insertCheck (nodeMax : Nat) (codes : List Bits) (c : Bits) (i : Nat) : Option Status :=
  if (codes.flatMap codeSteps).contains (c.take (i + 1)) then
    if i + 1 = c.length ∨ codes.contains (c.take (i + 1)) = true then some .malformedContainer else none
  else if trieSize (c.take i :: codes) = nodeMax then some .capacityExceeded
  else none

/-- The status of the first failing check (e1) to (e5) of an entry after the entries `before` (R276), (e5) bit by bit (R277, R321). -/
def entryStatus (p : Params) (before : List (Nat × Bits)) (e : Nat × Bits) : Option Status :=
  if p.symMax < e.1 then some .malformedContainer
  else if p.maxCodeLen < e.2.length then some .capacityExceeded
  else if p.lMax ≤ before.length then some .capacityExceeded
  else if (before.map (fun f => f.1)).contains e.1 then some .malformedContainer
  else (List.range e.2.length).findSome? (insertCheck p.nodeMax (before.map (fun f => f.2)) e.2)

/-- The status of the first failing entry of a table, in text order (R276, R321); `none` for a table that passes. -/
def tableStatus (p : Params) (es : List (Nat × Bits)) : Option Status :=
  (List.range es.length).findSome? (fun k => (es[k]?).bind (entryStatus p (es.take k)))

/-! ### The greedy matcher of R284 -/

/-- The symbol whose code is exactly the candidate string, if any. -/
def matchCode (es : List (Nat × Bits)) (cand : Bits) : Option Word :=
  match es.find? (fun e => e.2 == cand) with
  | some e => some (Word.ofNat e.1)
  | none => none

/-- The source's matcher (R279, R284): extend the candidate bit by bit, emit when it equals a code, fail on a candidate left over. -/
def greedyMatch (es : List (Nat × Bits)) : Bits → Bits → Option (List Word)
  | [], [] => some []
  | _ :: _, [] => none
  | cand, b :: bs =>
    match matchCode es (cand ++ [b]) with
    | some v =>
      match greedyMatch es [] bs with
      | none => none
      | some out => some (v :: out)
    | none => greedyMatch es (cand ++ [b]) bs

/-- No code of the list is a prefix of another (R13, R219). -/
abbrev PrefixFree (codes : List Bits) : Prop := codes.Pairwise (fun c d => ¬ c <+: d ∧ ¬ d <+: c)

/-! ### The tree walk and optimality -/

/-- The node a path leads to from node `n`: left on 0, right on 1 (R212). -/
def descend (ns : List Node) (n : Nat) : Bits → Nat
  | [] => n
  | b :: c => descend ns (if b then (nodeGet ns n).right else (nodeGet ns n).left) c

/-- A binary tree over numbered leaves, every internal node with two children (R192). -/
inductive LeafTree where
  | leaf (i : Nat)
  | node (l r : LeafTree)
deriving DecidableEq, Repr

/-- The leaves of a tree, left to right. -/
def treeLeaves : LeafTree → List Nat
  | .leaf i => [i]
  | .node l r => treeLeaves l ++ treeLeaves r

/-- Σ over the leaves of depth × weight, the root at depth `d` (R192). -/
def treeCost (w : Nat → Nat) (d : Nat) : LeafTree → Nat
  | .leaf i => d * w i
  | .node l r => treeCost w (d + 1) l + treeCost w (d + 1) r

/-- Σ over a code table of code length × weight; under R212 an entry's code length is its leaf's depth. -/
def tableCost (weight : Word → Nat) (ct : List CodeEntry) : Nat :=
  (ct.map (fun e => e.bits.length * weight e.sym)).sum

/-- The count of a symbol among leaves. -/
def weightOf (leaves : List Node) (s : Word) : Nat :=
  ((leaves.filter (fun r => r.sym == s)).map (fun r => r.weight.toNat)).sum

end Sys2Proof.Safety
end

