-- ==== Sys2Proof/Certificates/Slice0/Obligations.lean ====
section
/-! DEFINITION. The obligations: statements from the numbered rules of spec/, for the provers. A statement about a command that reads
an operand speaks of a latched command (`s.busy = some l`), which is the only way the block runs one (40_control.md R161). -/

open Sys2Proof Sys2Proof.Machine Sys2Proof.Safety

/-! ### Command words -/

/-- R114: the seven command words, and words the map leaves out. -/
def Obligations.OpcodeWordsDecode : Prop :=
  decode 0x00000000 = .ok .nop ∧ decode 0x00000001 = .ok .clear ∧ decode 0x00000002 = .ok .loadFreq ∧
  decode 0x00000003 = .ok .buildTree ∧ decode 0x00000004 = .ok .genCodes ∧ decode 0x00000005 = .ok .encode ∧
  decode 0x00000006 = .ok .decode ∧ decode 0x00000007 = .error .unknownOpcode ∧
  decode 0x000000FF = .error .unknownOpcode ∧ decode 0x00000107 = .error .reservedBits ∧
  decode 0x80000000 = .error .reservedBits

/-- R114: a word selects a command only when all 32 bits equal the command's OP; decoder and encoder agree both ways. -/
def Obligations.DecodeIffEncode : Prop :=
  ∀ (w : Word) (i : Instr),
    (decode w = .ok i ↔ w = encode i) ∧
    (encode i).toNat = (match i with
      | .nop => 0 | .clear => 1 | .loadFreq => 2 | .buildTree => 3 | .genCodes => 4 | .encode => 5 | .decode => 6)

/-- R112, R115: the words that name no command, and why. -/
def Obligations.IllegalWordsNamed : Prop :=
  ∀ w : Word,
    (decode w = .error .reservedBits ↔ 0x100 ≤ w.toNat) ∧
    (decode w = .error .unknownOpcode ↔ 0x07 ≤ w.toNat ∧ w.toNat ≤ 0xFF)

/-! ### The step and the command lifecycle -/

/-- R161, R92: on the core's turn the step runs the latched command the decoder names, or completes a word that names none; on the
host's turn it performs the script's next move; when the run is over nothing happens (R332, R363). The turn itself is taken off the
model's schedule (log 6). -/
def Obligations.StepRunsTheNextTurn : Prop :=
  ∀ s : State,
    (∀ (l : Latch) (i : Instr), nextAgent s = .core → s.rst = false → s.busy = some l → decode l.cmd = .ok i →
      step s = exec i { s with turns := s.turns.tail }) ∧
    (∀ (l : Latch) (e : DecodeError), nextAgent s = .core → s.rst = false → s.busy = some l → decode l.cmd = .error e →
      step s = completeIllegal { s with turns := s.turns.tail }) ∧
    (∀ (m : HostMove) (ms : List HostMove), nextAgent s = .host → s.script = m :: ms →
      step s = hostMove m { s with turns := s.turns.tail, script := ms }) ∧
    (runOver s = true → step s = .next { s with turns := s.turns.tail })

/-- R164, R319: a latched word that names no command (bits 31:8 not 0, or OP 0x07 to 0xFF, that is 7 or more) completes with
IllegalCommand and does nothing else. -/
def Obligations.IllegalWordCompletes : Prop :=
  ∀ (s : State) (l : Latch), s.rst = false → s.busy = some l → 0x07 ≤ l.cmd.toNat →
    coreTurn s =
      .next { s with res0 := 0, res1 := 0, res2 := 0, err := .illegalCommand, done := true, busy := none }

/-- R160: a CMD write latches the command and its operands, or is dropped. -/
def Obligations.CmdWriteIssuesOrDrops : Prop :=
  ∀ (s : State) (w : Word), s.rst = false →
    (s.busy = none → hostMove (.write 32 0x010 w) s =
      .next { s with busy := some { cmd := w, a0 := s.arg0, a1 := s.arg1 }, done := false, err := .ok }) ∧
    (s.busy.isSome = true → hostMove (.write 32 0x010 w) s = .next { s with cmdDropped := true })

/-- R310: every issued command, legal or not, completes, whatever the state. -/
def Obligations.EveryIssuedCommandCompletes : Prop :=
  ∀ (s : State) (l : Latch), s.rst = false → s.busy = some l →
    ∃ t, coreTurn s = .next t ∧ t.busy = none ∧ t.done = true

/-- R316: what a failing command changes, and that it changes nothing else. -/
def Obligations.FailedCommandCommitsNothing : Prop :=
  ∀ (i : Instr) (s t : State), exec i s = .next t → t.err ≠ .ok →
    t = { (if i = .decode then clearContext s else s) with
          res0 := 0, res1 := 0, res2 := 0
          outLen := if i = .encode ∨ i = .decode then 0 else s.outLen
          err := t.err, done := true, busy := none }

/-- R91: ENCODE reads no SYM word past SYM[ARG0−1]. -/
def Obligations.EncodeReadsOnlyItsInput : Prop :=
  ∀ (s t : State) (l : Latch) (m : List (Nat × Word)), s.busy = some l →
    (∀ i, i < l.a0.toNat → symAt { s with sym := m } i = symAt s i) → exec .encode s = .next t →
    exec .encode { s with sym := m } = .next { t with sym := m }

/-- R91: DECODE reads no BYT byte past BYT[ARG0−1]. -/
def Obligations.DecodeReadsOnlyItsContainer : Prop :=
  ∀ (s t : State) (l : Latch) (m : List Host.Cell), s.busy = some l →
    (∀ j, j < l.a0.toNat → bytAt { s with byt := m } j = bytAt s j) → exec .decode s = .next t →
    exec .decode { s with byt := m } = .next { t with byt := m }

/-! ### NOP and CLEAR -/

/-- R162. -/
def Obligations.NopCompletes : Prop :=
  ∀ s : State, exec .nop s =
    .next { s with res0 := 0, res1 := 0, res2 := 0, err := .ok, done := true, busy := none }

/-- R163, and the windows it leaves reading 0; records past the counts are no state, so the RAM lists are left out of the equation. -/
def Obligations.ClearCompletes : Prop :=
  ∀ s : State, ∃ t, exec .clear s = .next t ∧
    { t with nodes := [], ct := [] } =
      { s with nodes := [], ct := [], phase := .empty, leafCount := 0, total := 0, nodeCount := 0, ctCount := 0,
               res0 := 0, res1 := 0, res2 := 0, err := .ok, done := true, busy := none } ∧
    (∀ n f, readLoc t (.node n f) = 0 ∧ readLoc t (.code n f) = 0)

/-! ### LOAD_FREQ -/

/-- R181 on success: one more leaf, the counts and TOTAL without wrap, the results; earlier leaves stay. -/
def Obligations.LoadFreqAppendsLeaf : Prop :=
  ∀ (s : State) (l : Latch), s.busy = some l → (s.phase = .empty ∨ s.phase = .loading) →
    l.a0.toNat ≤ s.cfg.symMax → l.a1 ≠ 0 →
    (s.leafCount = 0 ∨ (nodeGet s.nodes (s.leafCount - 1)).sym.toNat < l.a0.toNat) →
    s.leafCount ≠ s.cfg.lMax → s.total.toNat + l.a1.toNat ≤ 0xFFFFFFFF →
    ∃ t, exec .loadFreq s = .next t ∧ t.err = .ok ∧ t.done = true ∧ t.busy = none ∧ t.phase = .loading ∧
      t.leafCount = s.leafCount + 1 ∧ t.nodeCount = s.leafCount + 1 ∧
      t.total.toNat = s.total.toNat + l.a1.toNat ∧
      t.res0 = Word.ofNat (s.leafCount + 1) ∧ t.res1 = t.total ∧ t.res2 = 0 ∧
      nodeGet t.nodes s.leafCount = { kind := .leaf, weight := l.a1, sym := l.a0, left := 0, right := 0 } ∧
      (∀ k, k < s.leafCount → nodeGet t.nodes k = nodeGet s.nodes k)

/-- R181, R182, R321: LOAD_FREQ's status is that of the first failing check (a) to (f). -/
def Obligations.LoadFreqFirstFailingCheck : Prop :=
  ∀ (s : State) (l : Latch), s.busy = some l →
    ∃ t, exec .loadFreq s = .next t ∧
      t.err =
        (if s.phase = .treeBuilt ∨ s.phase = .codesReady then Status.sequenceError
         else if s.cfg.symMax < l.a0.toNat then .invalidInput
         else if l.a1.toNat = 0 then .invalidInput
         else if 0 < s.leafCount ∧ l.a0.toNat ≤ (nodeGet s.nodes (s.leafCount - 1)).sym.toNat then .invalidInput
         else if s.leafCount = s.cfg.lMax then .capacityExceeded
         else if 2 ^ 32 ≤ s.total.toNat + l.a1.toNat then .capacityExceeded
         else .ok)

/-! ### Frames -/

/-- The frame of the five commands that touch no memory (R91, R113, R162, R163, R181, R188, R211). -/
def Obligations.ContextCommandsFrame : Prop :=
  ∀ (i : Instr) (s t : State), i ≠ .encode → i ≠ .decode → exec i s = .next t →
    t = { s with phase := t.phase, leafCount := t.leafCount, total := t.total, nodeCount := t.nodeCount,
                 nodes := t.nodes, ctCount := t.ctCount, ct := t.ct, res0 := t.res0, res1 := t.res1, res2 := t.res2,
                 err := t.err, done := true, busy := none } ∧
    (∀ k, symAt t k = symAt s k) ∧ (∀ k, bytAt t k = bytAt s k) ∧
    (i = .nop → t.phase = s.phase ∧ t.leafCount = s.leafCount ∧ t.total = s.total ∧ t.nodeCount = s.nodeCount ∧
      t.nodes = s.nodes ∧ t.ctCount = s.ctCount ∧ t.ct = s.ct) ∧
    (i = .loadFreq → t.ctCount = s.ctCount ∧ t.ct = s.ct ∧
      ∀ n, n < s.leafCount → nodeGet t.nodes n = nodeGet s.nodes n) ∧
    (i = .buildTree → t.leafCount = s.leafCount ∧ t.total = s.total ∧ t.ctCount = s.ctCount ∧ t.ct = s.ct ∧
      ∀ n, n < s.leafCount → nodeGet t.nodes n = nodeGet s.nodes n) ∧
    (i = .genCodes → t.leafCount = s.leafCount ∧ t.total = s.total ∧ t.nodeCount = s.nodeCount ∧ t.nodes = s.nodes)

/-- The frame of ENCODE (R91, R247, R248): the context and SYM never change; BYT changes only below the container's length, and
only on OK. -/
def Obligations.EncodeFrame : Prop :=
  ∀ (s t : State) (l : Latch), s.busy = some l → exec .encode s = .next t →
    t = { s with byt := t.byt, outLen := t.outLen, res0 := t.res0, res1 := t.res1, res2 := t.res2,
                 err := t.err, done := true, busy := none } ∧
    (∀ k, symAt t k = symAt s k) ∧
    (t.err ≠ .ok → ∀ j, bytAt t j = bytAt s j) ∧
    (∀ j, (container (codeEntries s) (encodeBits s l.a0.toNat)).length ≤ j → bytAt t j = bytAt s j)

/-- The frame of DECODE (R91, R272, R282, R283): BYT never changes; SYM changes only below the number of decoded symbols, and only
on OK; of the registers only the context, OUT_LEN and the completion record change. -/
def Obligations.DecodeFrame : Prop :=
  ∀ (s t : State) (l : Latch), s.busy = some l → exec .decode s = .next t →
    { t with nodes := [], ct := [] } =
      { s with sym := t.sym, outLen := t.outLen, nodes := [], ct := [], phase := .empty, leafCount := 0, total := 0,
               nodeCount := 0, ctCount := 0, res0 := t.res0, res1 := t.res1, res2 := t.res2,
               err := t.err, done := true, busy := none } ∧
    (∀ j, bytAt t j = bytAt s j) ∧
    (t.err ≠ .ok → ∀ k, symAt t k = symAt s k) ∧
    (∀ d, decodeResult s l.a0.toNat = .ok d → ∀ k, d.symbols.length ≤ k → symAt t k = symAt s k)

/-! ### BUILD_TREE -/

/-- R185: pop takes the index with the least key (weight, index) out of the queue, and answers for every non-empty queue. -/
def Obligations.PopTakesLeastKey : Prop :=
  ∀ (ns : List Node) (q : List Nat),
    (popMin ns q = none ↔ q = []) ∧
    (∀ a q', popMin ns q = some (a, q') →
      a ∈ q ∧ q' = q.erase a ∧
      ∀ b ∈ q, b ≠ a →
        (nodeGet ns a).weight.toNat < (nodeGet ns b).weight.toNat ∨
        ((nodeGet ns a).weight.toNat = (nodeGet ns b).weight.toNat ∧ a < b))

/-- R188, R47, R191: BUILD_TREE on loaded leaves completes; the counts, the root and its weight; the leaves stay. -/
def Obligations.BuildTreeCompletes : Prop :=
  ∀ s : State, s.phase = .loading → ContextOk s →
    ∃ t, exec .buildTree s = .next t ∧ t.err = .ok ∧ t.done = true ∧ t.busy = none ∧ t.phase = .treeBuilt ∧
      t.nodeCount = (if s.leafCount = 1 then 3 else 2 * s.leafCount - 1) ∧
      t.res0 = Word.ofNat (t.nodeCount - 1) ∧ t.res1 = Word.ofNat t.nodeCount ∧
      t.res2 = (nodeGet t.nodes (t.nodeCount - 1)).weight ∧ t.res2 = s.total ∧
      (∀ n, n < s.leafCount → nodeGet t.nodes n = nodeGet s.nodes n)

/-- R190, R215: the tree of a single symbol, and the one code it gives: "0" for the symbol, none for the dummy. -/
def Obligations.SingleSymbolTree : Prop :=
  ∀ s : State, s.phase = .loading → s.leafCount = 1 →
    ∃ t, exec .buildTree s = .next t ∧ t.err = .ok ∧ t.nodeCount = 3 ∧ nodeGet t.nodes 0 = nodeGet s.nodes 0 ∧
      nodeGet t.nodes 1 = { kind := .dummy, weight := 0, sym := 0, left := 0, right := 0 } ∧
      nodeGet t.nodes 2 =
        { kind := .internal, weight := (nodeGet s.nodes 0).weight, sym := 0, left := 0, right := 1 } ∧
      ((nodeGet s.nodes 0).kind = .leaf →
        codeTable t.nodes = [{ sym := (nodeGet s.nodes 0).sym, bits := [false] }])

/-- R187, R189: each internal node joins the two least keys among the nodes that have no parent yet, the least on the left. -/
def Obligations.MergePicksTwoLeast : Prop :=
  ∀ ls : List Node, 2 ≤ ls.length → (∀ r ∈ ls, r.kind = .leaf) →
    (mergeTree ls).length = 2 * ls.length - 1 ∧
    (∀ k, k < ls.length → nodeGet (mergeTree ls) k = nodeGet ls k) ∧
    ∀ m, ls.length ≤ m → m < 2 * ls.length - 1 →
      ∃ a b, a ≠ b ∧
        nodeGet (mergeTree ls) m =
          { kind := .internal, sym := 0, left := a, right := b,
            weight := (nodeGet (mergeTree ls) a).weight + (nodeGet (mergeTree ls) b).weight } ∧
        a < m ∧ b < m ∧
        (∀ k, k < m → isParent (mergeTree ls) a k = false) ∧ (∀ k, k < m → isParent (mergeTree ls) b k = false) ∧
        keyLt (mergeTree ls) a b = true ∧
        (∀ n, n < m → n ≠ a → n ≠ b → (∀ k, k < m → isParent (mergeTree ls) n k = false) →
          keyLt (mergeTree ls) b n = true)

/-- R188, R318: BUILD_TREE out of LOADING fails and changes nothing but STATUS and RES. -/
def Obligations.BuildTreeOutOfPhase : Prop :=
  ∀ s : State,
    (s.phase = .empty → exec .buildTree s =
      .next { s with res0 := 0, res1 := 0, res2 := 0, err := .invalidInput, done := true, busy := none }) ∧
    (s.phase = .treeBuilt ∨ s.phase = .codesReady → exec .buildTree s =
      .next { s with res0 := 0, res1 := 0, res2 := 0, err := .sequenceError, done := true, busy := none })

/-- R192: for two or more leaves no binary tree over the same leaves has a smaller Σ depth × weight. -/
def Obligations.TreeIsOptimal : Prop :=
  ∀ s t : State, s.phase = .loading → ContextOk s → 2 ≤ s.leafCount → exec .buildTree s = .next t →
    ∀ tree : LeafTree, (treeLeaves tree).Perm (List.range s.leafCount) →
      tableCost (weightOf s.nodes) (codeTable t.nodes) ≤
        treeCost (fun n => (nodeGet s.nodes n).weight.toNat) 0 tree

/-! ### GEN_CODES -/

/-- R216, R211: what a successful GEN_CODES leaves, and that a failing one changes nothing but STATUS and RES. -/
def Obligations.GenCodesFillsTheTable : Prop :=
  ∀ s : State,
    (s.phase = .treeBuilt → s.cfg.legal = true → ContextOk s →
      ∃ t, exec .genCodes s = .next t ∧ t.err = .ok ∧ t.done = true ∧ t.busy = none ∧ t.phase = .codesReady ∧
        t.ctCount = s.leafCount ∧ t.ct.length = s.leafCount ∧
        (∀ n, n < s.leafCount → (t.ct.filter (fun e => e.sym == (nodeGet s.nodes n).sym)).length = 1) ∧
        (∀ e ∈ t.ct, 1 ≤ e.bits.length ∧ e.bits.length ≤ s.cfg.maxCodeLen) ∧
        t.res0 = Word.ofNat s.leafCount ∧
        (∃ e ∈ t.ct, t.res1 = Word.ofNat e.bits.length ∧ ∀ e' ∈ t.ct, e'.bits.length ≤ e.bits.length) ∧
        t.res2 = Word.ofNat (tableText t.ct).length ∧ t.nodes = s.nodes ∧ t.nodeCount = s.nodeCount) ∧
    (s.phase ≠ .treeBuilt → exec .genCodes s =
      .next { s with res0 := 0, res1 := 0, res2 := 0, err := .sequenceError, done := true, busy := none })

/-- R219: no code of the table GEN_CODES fills is a prefix of another, nor equal to it. -/
def Obligations.CodesArePrefixFree : Prop :=
  ∀ s t : State, ContextOk s → exec .genCodes s = .next t → t.err = .ok →
    PrefixFree (t.ct.map (fun e => e.bits)) ∧ (t.ct.map (fun e => e.bits)).Nodup

/-- R213: the entries stand in ascending lexicographic order of their codes, 0 before 1. -/
def Obligations.CodesAscend : Prop :=
  ∀ s t : State, ContextOk s → exec .genCodes s = .next t → t.err = .ok →
    t.ct.Pairwise (fun a b => a.bits < b.bits)

/-- R212: an entry's code is the path of left and right choices from the root to the leaf of its symbol. -/
def Obligations.CodeIsThePathToItsLeaf : Prop :=
  ∀ (ns : List Node) (leaves : Nat), 1 ≤ leaves → TreeOk ns leaves →
    ∀ e ∈ codeTable ns,
      (nodeGet ns (descend ns (ns.length - 1) e.bits)).kind = .leaf ∧
      (nodeGet ns (descend ns (ns.length - 1) e.bits)).sym = e.sym

/-- R218: the length of the table text, and its bound. -/
def Obligations.TableTextLength : Prop :=
  ∀ ct : List CodeEntry, ct ≠ [] →
    (tableText ct).length =
      (ct.map (fun e => (decText e.sym).length + 1 + e.bits.length)).sum + (ct.length - 1) ∧
    (ct.length ≤ 256 → (∀ e ∈ ct, e.sym.toNat ≤ 0x10FFFF ∧ e.bits.length ≤ 255) → (tableText ct).length ≤ 67583)

/-- R125: a symbol is spelled in decimal digits that read back as its value, with no leading zero but "0" itself. -/
def Obligations.DecimalSpelling : Prop :=
  ∀ s : Word,
    decText s ≠ [] ∧ (decText s).all isDigit = true ∧ decimalValue (decText s) = s.toNat ∧
    (s = 0 → decText s = [0x30]) ∧ (s ≠ 0 → (decText s).head? ≠ some 0x30)

/-! ### ENCODE -/

/-- R241, R247, R248 on success: the container in BYT byte by byte, OUT_LEN and the results. -/
def Obligations.EncodeWritesContainer : Prop :=
  ∀ (s : State) (l : Latch) (input : List Word) (bits : Bits) (text : List Byte), s.busy = some l →
    s.phase = .codesReady → s.cfg.legal = true → ContextOk s → l.a0.toNat ≤ s.cfg.symWords →
    input = symSlice s l.a0.toNat → (∀ w, input.count w = weightOf (s.nodes.take s.leafCount) w) →
    bits = input.flatMap (codeOf s.ct) → text = tableText s.ct →
    5 + text.length + (bits.length + 7) / 8 ≤ s.cfg.bytBytes →
    ∃ t, exec .encode s = .next t ∧ t.err = .ok ∧ t.done = true ∧ t.busy = none ∧ t.phase = .codesReady ∧
      t.outLen.toNat = 5 + text.length + (bits.length + 7) / 8 ∧
      t.res0.toNat = text.length ∧ t.res1.toNat = bits.length ∧
      t.res2.toNat = 8 * ((bits.length + 7) / 8) - bits.length ∧
      (bytAt t 0).toNat = 8 * ((bits.length + 7) / 8) - bits.length ∧
      (bytAt t 1).toNat * 2 ^ 24 + (bytAt t 2).toNat * 2 ^ 16 + (bytAt t 3).toNat * 2 ^ 8 + (bytAt t 4).toNat =
        text.length ∧
      (∀ k, k < text.length → text[k]? = some (bytAt t (5 + k))) ∧
      (∀ m i, m < (bits.length + 7) / 8 → i < 8 →
        (bytAt t (5 + text.length + m)).getLsbD (7 - i) = (bits[8 * m + i]?).getD false) ∧
      (∀ j, 5 + text.length + (bits.length + 7) / 8 ≤ j → bytAt t j = bytAt s j)

/-- R241, R246, R321: ENCODE's status is that of the first failing check (a) to (f). -/
def Obligations.EncodeFirstFailingCheck : Prop :=
  ∀ (s : State) (l : Latch), s.busy = some l →
    ∃ t, exec .encode s = .next t ∧
      t.err =
        (if s.phase ≠ .codesReady then Status.sequenceError
         else if s.cfg.symWords < l.a0.toNat then .capacityExceeded
         else if inputMatches (nodeSlice s.nodes s.leafCount) (symSlice s l.a0.toNat) = false then .invalidInput
         else if s.cfg.bytBytes < (container (codeEntries s) (encodeBits s l.a0.toNat)).length then .capacityExceeded
         else .ok)

/-- R243: the scan accepts exactly the inputs that hold every loaded symbol as often as its count says, and nothing else. -/
def Obligations.ScanAcceptsTheLoadedMultiset : Prop :=
  ∀ (leaves : List Node) (input : List Word), leaves.Pairwise (fun a b => a.sym ≠ b.sym) →
    (inputMatches leaves input = true ↔ ∀ w, input.count w = weightOf leaves w)

/-- R245: the pad-count fills the last byte, is below 8, and is 0 exactly for a whole number of bytes. -/
def Obligations.PadFillsTheLastByte : Prop :=
  ∀ b : Nat, padOf b = 8 * ((b + 7) / 8) - b ∧ padOf b ≤ 7 ∧ 8 ∣ b + padOf b ∧ (padOf b = 0 ↔ 8 ∣ b)

/-- R244: the payload bit count is the weighted path length, and at least 1. -/
def Obligations.PayloadBitCount : Prop :=
  ∀ (s : State) (input : List Word), s.phase = .codesReady → ContextOk s →
    (∀ w, input.count w = weightOf (s.nodes.take s.leafCount) w) →
    (codeBits s.ct input).length =
      ((s.nodes.take s.leafCount).map (fun r => r.weight.toNat * (codeOf s.ct r.sym).length)).sum ∧
    1 ≤ (codeBits s.ct input).length

/-- R127, R128: unpacking gives back the packed bits and the zero padding, and packing gives back the unpacked bytes. -/
def Obligations.UnpackInvertsPack : Prop :=
  (∀ c : Bits, unpackBits (packBits c) = c ++ List.replicate (padOf c.length) false) ∧
  (∀ p : List Byte, packBits (unpackBits p) = p)

/-! ### DECODE -/

/-- R272: DECODE discards the context whatever its outcome. -/
def Obligations.DecodeClearsContext : Prop :=
  ∀ s : State, ∃ t, exec .decode s = .next t ∧
    t.phase = .empty ∧ t.leafCount = 0 ∧ t.total = 0 ∧ t.nodeCount = 0 ∧ t.ctCount = 0

/-- R271, R282, R283 on success: the decoded symbols in SYM, OUT_LEN and the results; everything else in SYM and BYT stays. -/
def Obligations.DecodeWritesSymbols : Prop :=
  ∀ (s : State) (l : Latch) (pad b1 b2 b3 b4 : Byte) (text payload : List Byte) (es : List (Nat × Bits)) (root : Trie)
    (out : List Word), s.busy = some l → s.cfg.legal = true → l.a0.toNat ≤ s.cfg.bytBytes →
    bytSlice s l.a0.toNat = pad :: b1 :: b2 :: b3 :: b4 :: (text ++ payload) →
    b1.toNat * 2 ^ 24 + b2.toNat * 2 ^ 16 + b3.toNat * 2 ^ 8 + b4.toNat = text.length →
    parseTable text = some es → buildTrie s.cfg es = .ok root → pad.toNat ≤ 8 * payload.length →
    walkBits root none ((unpackBits payload).take (8 * payload.length - pad.toNat)) = some out →
    out.length ≤ s.cfg.symWords →
    ∃ t, exec .decode s = .next t ∧ t.err = .ok ∧ t.done = true ∧ t.busy = none ∧ t.phase = .empty ∧
      t.outLen.toNat = out.length ∧ t.res0.toNat = out.length ∧ t.res1.toNat = text.length ∧
      t.res2.toNat = pad.toNat ∧
      (∀ k, k < out.length → out[k]? = some (symAt t k)) ∧
      (∀ k, out.length ≤ k → symAt t k = symAt s k) ∧ (∀ j, bytAt t j = bytAt s j)

/-- R273: the header checks (a) to (c), in order, compared without wrap. -/
def Obligations.DecodeHeaderChecks : Prop :=
  ∀ (s : State) (l : Latch), s.busy = some l →
    ∃ t, exec .decode s = .next t ∧
      (s.cfg.bytBytes < l.a0.toNat → t.err = .capacityExceeded) ∧
      (l.a0.toNat ≤ s.cfg.bytBytes → l.a0.toNat < 5 → t.err = .malformedContainer) ∧
      (l.a0.toNat ≤ s.cfg.bytBytes → 5 ≤ l.a0.toNat →
        l.a0.toNat - 5 < (bytAt s 1).toNat * 2 ^ 24 + (bytAt s 2).toNat * 2 ^ 16 + (bytAt s 3).toNat * 2 ^ 8 +
          (bytAt s 4).toNat → t.err = .malformedContainer)

/-- R271, R275 to R281, R321: DECODE's checks after the header, in order: a table text that does not parse, then the first failing
entry check (e1) to (e5), then the payload checks (f) to (h). -/
def Obligations.DecodePayloadChecks : Prop :=
  ∀ (s : State) (l : Latch) (pad b1 b2 b3 b4 : Byte) (text payload : List Byte),
    s.busy = some l → l.a0.toNat ≤ s.cfg.bytBytes →
    bytSlice s l.a0.toNat = pad :: b1 :: b2 :: b3 :: b4 :: (text ++ payload) →
    b1.toNat * 2 ^ 24 + b2.toNat * 2 ^ 16 + b3.toNat * 2 ^ 8 + b4.toNat = text.length →
    ∃ t, exec .decode s = .next t ∧
      (parseTable text = none → t.err = .malformedContainer) ∧
      (∀ es e, parseTable text = some es → tableStatus s.cfg es = some e → t.err = e) ∧
      (∀ es, parseTable text = some es → tableStatus s.cfg es = none →
        ∃ root, buildTrie s.cfg es = .ok root ∧
          t.err =
            (if 8 * payload.length < pad.toNat then Status.corruptContainer
             else
               match walkBits root none ((unpackBits payload).take (8 * payload.length - pad.toNat)) with
               | none => .corruptContainer
               | some out => if s.cfg.symWords < out.length then .capacityExceeded else .ok))

/-- R123, R126, R275: the parser accepts exactly the grammar `table`, with its entries' values and codes. -/
def Obligations.ParserAcceptsTheGrammar : Prop :=
  ∀ (text : List Byte) (es : List (Nat × Bits)), parseTable text = some es ↔ IsTable text es

/-- R217, R275: the table text ENCODE writes parses back to the code table, entry by entry. -/
def Obligations.TableTextParsesBack : Prop :=
  ∀ ct : List CodeEntry, ct ≠ [] → (∀ e ∈ ct, e.bits ≠ []) →
    parseTable (tableText ct) = some (ct.map (fun e => (e.sym.toNat, e.bits)))

/-- R276, R277, R284, R317: the tables the decoder accepts are exactly the prefix-free ones without repeated symbols and within L_MAX,
SYM_MAX, MAX_CODE_LEN and NODE_MAX. -/
def Obligations.AcceptedTablesArePrefixFree : Prop :=
  ∀ (p : Params) (es : List (Nat × Bits)), p.legal = true → (∀ e ∈ es, e.2 ≠ []) →
    ((∃ root, buildTrie p es = .ok root) ↔
      PrefixFree (es.map (fun e => e.2)) ∧ (es.map (fun e => e.1)).Nodup ∧ es.length ≤ p.lMax ∧
      (∀ e ∈ es, e.1 ≤ p.symMax ∧ e.2.length ≤ p.maxCodeLen) ∧
      trieSize (es.map (fun e => e.2)) ≤ p.nodeMax)

/-- R284: on an accepted table the trie walk and the source's greedy matcher have the same outcome. -/
def Obligations.WalkAgreesWithGreedyMatcher : Prop :=
  ∀ (p : Params) (es : List (Nat × Bits)) (root : Trie) (bits : Bits), (∀ e ∈ es, e.2 ≠ []) →
    buildTrie p es = .ok root → walkBits root none bits = greedyMatch es [] bits

/-- R285: DECODE of what a successful ENCODE wrote gives back the encoded symbols. -/
def Obligations.DecodeInvertsEncode : Prop :=
  ∀ (s t u : State) (l k : Latch), s.busy = some l → s.cfg.legal = true → ContextOk s → exec .encode s = .next t →
    t.err = .ok → u.cfg = s.cfg → u.busy = some k → k.a0 = t.outLen →
    (∀ j, j < t.outLen.toNat → bytAt u j = bytAt t j) →
    ∃ v, exec .decode u = .next v ∧ v.err = .ok ∧ v.outLen = l.a0 ∧
      (∀ i, i < l.a0.toNat → symAt v i = symAt s i)

/-! ### The host interface -/

/-- R31, R32, R49: the constants read their values at all times, and writes to them are ignored. -/
def Obligations.ConstantRegisters : Prop :=
  ∀ (s : State) (v : Word), s.rst = false →
    hostMove (.read 32 0x000) s = .next { s with reads := 0x48554646 :: s.reads } ∧
    hostMove (.read 32 0x004) s = .next { s with reads := 0x00010000 :: s.reads } ∧
    hostMove (.read 32 0x03C) s = .next { s with reads := Word.ofNat s.cfg.lMax :: s.reads } ∧
    hostMove (.read 32 0x040) s = .next { s with reads := Word.ofNat s.cfg.symMax :: s.reads } ∧
    hostMove (.read 32 0x044) s = .next { s with reads := Word.ofNat s.cfg.symWords :: s.reads } ∧
    hostMove (.read 32 0x048) s = .next { s with reads := Word.ofNat s.cfg.bytBytes :: s.reads } ∧
    ∀ off ∈ [(0x000 : Offset), 0x004, 0x03C, 0x040, 0x044, 0x048], hostMove (.write 32 off v) s = .next s

/-- R90, R358, R51: a read changes nothing in the block; busy, only the registers R358 lists and the reserved offsets read their true
value. Every other location then reads a free value (Config.busyRead), whatever it is; that CMD is one of them is the model's choice of
R358 over R40 (log 5), and so are the SYM and BYT offsets past the configured sizes (R358 over R81, log 5). Idle, CMD reads 0 and every
result and count register its own value (R40, R43 to R48), and writes to those are ignored. -/
def Obligations.ReadsHaveNoSideEffect : Prop :=
  (∀ (s : State) (off : Offset), s.rst = false → off.toNat % 4 = 0 →
    ∃ t v, hostMove (.read 32 off) s = .next t ∧
      t = { s with reads := v :: s.reads, draws := t.draws } ∧
      (s.busy = none ∨
        off ∈ [(0x000 : Offset), 0x004, 0x008, 0x00C, 0x014, 0x018, 0x03C, 0x040, 0x044, 0x048] ∨
        0x04C ≤ off.toNat ∧ off.toNat < 0x100000 ∨ 0x300000 ≤ off.toNat ∧ off.toNat < 0x400000 →
        v = readLoc s (locate off.toNat) ∧ t.draws = s.draws) ∧
      (s.busy.isSome = true →
        off ∉ [(0x000 : Offset), 0x004, 0x008, 0x00C, 0x014, 0x018, 0x03C, 0x040, 0x044, 0x048] →
        ¬ (0x04C ≤ off.toNat ∧ off.toNat < 0x100000) → ¬ (0x300000 ≤ off.toNat ∧ off.toNat < 0x400000) →
        v = Config.busyRead s.draws ∧ t.draws = s.draws + 1)) ∧
  (∀ s : State, s.rst = false → s.busy = none →
    hostMove (.read 32 0x010) s = .next { s with reads := 0 :: s.reads } ∧
    hostMove (.read 32 0x01C) s = .next { s with reads := s.res0 :: s.reads } ∧
    hostMove (.read 32 0x020) s = .next { s with reads := s.res1 :: s.reads } ∧
    hostMove (.read 32 0x024) s = .next { s with reads := s.res2 :: s.reads } ∧
    hostMove (.read 32 0x028) s = .next { s with reads := s.outLen :: s.reads } ∧
    hostMove (.read 32 0x02C) s = .next { s with reads := Word.ofNat s.leafCount :: s.reads } ∧
    hostMove (.read 32 0x030) s = .next { s with reads := s.total :: s.reads } ∧
    hostMove (.read 32 0x034) s = .next { s with reads := Word.ofNat s.nodeCount :: s.reads } ∧
    hostMove (.read 32 0x038) s = .next { s with reads := Word.ofNat s.ctCount :: s.reads }) ∧
  (∀ (s : State) (v : Word), s.rst = false →
    ∀ off ∈ [(0x01C : Offset), 0x020, 0x024, 0x028, 0x02C, 0x030, 0x034, 0x038], hostMove (.write 32 off v) s = .next s)

/-- R51, R81: reserved offsets read 0 and writes there change nothing, busy or not. -/
def Obligations.ReservedSpaceReadsZero : Prop :=
  ∀ (s : State) (off : Offset) (v : Word), s.rst = false → off.toNat % 4 = 0 →
    (0x04C ≤ off.toNat ∧ off.toNat < 0x100000 ∨ 0x300000 ≤ off.toNat ∧ off.toNat < 0x400000) →
    hostMove (.read 32 off) s = .next { s with reads := 0 :: s.reads } ∧
    hostMove (.write 32 off v) s = .next s

/-- R34: the fields of STATUS as a read gives them, and what a write clears. -/
def Obligations.StatusRegister : Prop :=
  ∀ (s : State) (v : Word), s.rst = false →
    (∃ w : Word, hostMove (.read 32 0x00C) s = .next { s with reads := w :: s.reads } ∧
      w.getLsbD 0 = s.busy.isSome ∧ w.getLsbD 1 = s.done ∧ w.getLsbD 2 = s.cmdDropped ∧ w.getLsbD 3 = false ∧
      (w.toNat / 2 ^ 4) % 2 ^ 4 = (match s.err with
        | .ok => 0 | .invalidInput => 1 | .malformedContainer => 2 | .corruptContainer => 3
        | .capacityExceeded => 4 | .sequenceError => 5 | .illegalCommand => 6) ∧
      w.toNat / 2 ^ 8 = (match s.phase with
        | .empty => 0 | .loading => 1 | .treeBuilt => 2 | .codesReady => 3)) ∧
    hostMove (.write 32 0x00C v) s =
      .next { s with
        done := if v.getLsbD 1 = true then false else s.done
        cmdDropped := if v.getLsbD 2 = true then false else s.cmdDropped }

/-- R33: CTRL stores and reads bit 0 alone, at all times. -/
def Obligations.CtrlRegister : Prop :=
  ∀ (s : State) (v : Word), s.rst = false →
    hostMove (.write 32 0x008 v) s = .next { s with irqEn := v.getLsbD 0 } ∧
    hostMove (.read 32 0x008) s = .next { s with reads := (if s.irqEn = true then 1 else 0) :: s.reads }

/-- R42, R356: ARG0 and ARG1 store and read back all 32 bits at all times, leave a latched command's operands alone, and no command
writes them. -/
def Obligations.ArgRegisters : Prop :=
  ∀ (s : State) (v : Word), s.rst = false →
    hostMove (.write 32 0x014 v) s = .next { s with arg0 := v } ∧
    hostMove (.write 32 0x018 v) s = .next { s with arg1 := v } ∧
    hostMove (.read 32 0x014) s = .next { s with reads := s.arg0 :: s.reads } ∧
    hostMove (.read 32 0x018) s = .next { s with reads := s.arg1 :: s.reads } ∧
    ∀ i t, exec i s = .next t → t.arg0 = s.arg0 ∧ t.arg1 = s.arg1

/-- R322, R323, R36: irq is IRQ_EN and DONE; only the core's completion of a latched command sets DONE; the only steps that lower irq
are a STATUS write with bit 1, the issue of a command, a CTRL write without bit 0, and reset; and each of these moves leaves it low. -/
def Obligations.OnlyTheseClearIrq : Prop :=
  (∀ s : State, irq s = true ↔ s.irqEn = true ∧ s.done = true) ∧
  (∀ s t : State, step s = .next t → s.done = false → t.done = true → nextAgent s = .core ∧ s.busy.isSome = true) ∧
  (∀ s t : State, step s = .next t → irq s = true → irq t = false →
    nextAgent s = .host ∧ ∃ m ms, s.script = m :: ms ∧
      (m = .assertRst ∨
       (∃ v : Word, m = .write 32 0x00C v ∧ v.getLsbD 1 = true) ∨
       (∃ v : Word, m = .write 32 0x010 v ∧ s.busy = none) ∨
       (∃ v : Word, m = .write 32 0x008 v ∧ v.getLsbD 0 = false))) ∧
  (∀ s : State, ∃ t, hostMove .assertRst s = .next t ∧ irq t = false) ∧
  (∀ (s : State) (v : Word), s.rst = false →
    (v.getLsbD 1 = true → ∃ t, hostMove (.write 32 0x00C v) s = .next t ∧ irq t = false) ∧
    (s.busy = none → ∃ t, hostMove (.write 32 0x010 v) s = .next t ∧ irq t = false) ∧
    (v.getLsbD 0 = false → ∃ t, hostMove (.write 32 0x008 v) s = .next t ∧ irq t = false ∧ t.done = s.done))

/-- R53, R54: the NODE window, word by word; beyond the count and beyond record 511 it reads 0; writes are ignored. -/
def Obligations.NodeWindow : Prop :=
  ∀ (s : State) (off : Offset) (v : Word), s.rst = false → off.toNat % 4 = 0 →
    0x100000 ≤ off.toNat → off.toNat < 0x200000 →
    hostMove (.write 32 off v) s = .next s ∧
    (s.busy.isSome = true → hostMove (.read 32 off) s =
      .next { s with reads := Config.busyRead s.draws :: s.reads, draws := s.draws + 1 }) ∧
    (s.busy = none → 0x104000 ≤ off.toNat → hostMove (.read 32 off) s = .next { s with reads := 0 :: s.reads }) ∧
    (∀ n f, s.busy = none → off.toNat = 0x100000 + 32 * n + 4 * f → n < 512 → f < 8 →
      hostMove (.read 32 off) s = .next { s with reads :=
        (if n < s.nodeCount then
          (match f with
           | 0 => (match (nodeGet s.nodes n).kind with
             | .none => (0 : Word) | .leaf => 1 | .internal => 2 | .dummy => 3)
           | 1 => (nodeGet s.nodes n).weight
           | 2 => (nodeGet s.nodes n).sym
           | 3 => Word.ofNat (nodeGet s.nodes n).left
           | 4 => Word.ofNat (nodeGet s.nodes n).right
           | _ => 0)
         else 0) :: s.reads })

/-- R57, R58: the CT window, word by word, with code bit 32·w + i in bit 31 − i of BITS_w; beyond the count and beyond record 255
it reads 0; writes are ignored. -/
def Obligations.CodeWindow : Prop :=
  ∀ (s : State) (off : Offset) (v : Word), s.rst = false → off.toNat % 4 = 0 →
    0x200000 ≤ off.toNat → off.toNat < 0x300000 →
    hostMove (.write 32 off v) s = .next s ∧
    (s.busy.isSome = true → hostMove (.read 32 off) s =
      .next { s with reads := Config.busyRead s.draws :: s.reads, draws := s.draws + 1 }) ∧
    (s.busy = none → 0x204000 ≤ off.toNat → hostMove (.read 32 off) s = .next { s with reads := 0 :: s.reads }) ∧
    (∀ k f, s.busy = none → off.toNat = 0x200000 + 64 * k + 4 * f → k < 256 → f < 16 →
      ∃ w : Word, hostMove (.read 32 off) s = .next { s with reads := w :: s.reads } ∧
        (s.ctCount ≤ k → w = 0) ∧
        (k < s.ctCount → ∀ e, s.ct[k]? = some e →
          (f = 0 → w = e.sym) ∧ (f = 1 → w = Word.ofNat e.bits.length) ∧ (10 ≤ f → w = 0) ∧
          (2 ≤ f → f < 10 → ∀ i, i < 32 → w.getLsbD (31 - i) = (e.bits[32 * (f - 2) + i]?).getD false)))

/-- R85, R86, R81: the SYM and BYT windows of an idle block: a write is read back (BYT: its low byte, zero-extended), no other
location changes, and beyond the configured size reads give 0 and writes change nothing. -/
def Obligations.DataWindows : Prop :=
  ∀ (s : State) (v : Word) (k : Nat), s.rst = false → s.busy = none →
    (k < 2 ^ 20 → ∃ t, hostMove (.write 32 (offSym k) v) s = .next t ∧ t = { s with sym := t.sym } ∧
      (∀ i, symAt t i = if i = k ∧ k < s.cfg.symWords then v else symAt s i) ∧
      hostMove (.read 32 (offSym k)) s =
        .next { s with reads := (if k < s.cfg.symWords then symAt s k else 0) :: s.reads }) ∧
    (k < 2 ^ 21 → ∃ t, hostMove (.write 32 (offByt k) v) s = .next t ∧ t = { s with byt := t.byt } ∧
      (∀ j, bytAt t j = if j = k ∧ k < s.cfg.bytBytes then v.setWidth 8 else bytAt s j) ∧
      hostMove (.read 32 (offByt k)) s =
        .next { s with reads := (if k < s.cfg.bytBytes then (bytAt s k).setWidth 32 else 0) :: s.reads })

/-- R83, R333, R350, R357: exactly which host moves are refused, and why; a well-formed move that keeps the host protocol of R355 to
R359 on a block out of reset is answered. That a busy write is refused at every offset of the SYM and BYT windows, those past the
configured sizes included, where R81 has a write ignored, is the model's reading of R357 (log 9). -/
def Obligations.RefusedMovesExactly : Prop :=
  ∀ (s : State) (m : HostMove),
    (∀ r : Refusal, hostMove m s = .refused r ↔
      (s.rst = true ∧ isAccess m = true ∧ r = .accessDuringReset) ∨
      (s.rst = false ∧ m.wf = false ∧ r = .busError) ∨
      (s.rst = false ∧ s.busy.isSome = true ∧ r = .dataWriteWhileBusy ∧
        ∃ off v, m = .write 32 off v ∧ off.toNat % 4 = 0 ∧ 0x400000 ≤ off.toNat)) ∧
    (s.rst = false → m.wf = true → keepsProtocol s m = true → ∃ t, hostMove m s = .next t)

/-! ### Reset and invariants -/

/-- R351, R353: asserting and releasing `rst`, in any state and with a command running or not, leaves every register, the context and
the latch at the reset values the spec gives, and no output committed. -/
def Obligations.ResetLeavesResetValues : Prop :=
  ∀ s : State, ∃ t u, hostMove .assertRst s = .next t ∧ t.rst = true ∧ irq t = false ∧ hostMove .releaseRst t = .next u ∧
    u.rst = false ∧ u.cfg = s.cfg ∧ u.busy = none ∧ statusWord u = 0 ∧ ctrlWord u = 0 ∧ irq u = false ∧
    u.arg0 = 0 ∧ u.arg1 = 0 ∧ u.res0 = 0 ∧ u.res1 = 0 ∧ u.res2 = 0 ∧ u.outLen = 0 ∧ u.leafCount = 0 ∧ u.total = 0 ∧
    u.nodeCount = 0 ∧ u.ctCount = 0

/-- R63, R351: the invariants hold right after reset, for all parameters. -/
def Obligations.InvariantsHoldAtReset : Prop :=
  ∀ p : Params,
    LatchOk (State.resetWith p) ∧ ResetOk (State.resetWith p) ∧ MemoryOk (State.resetWith p) ∧
    ContextOk (State.resetWith p) ∧ State.reset = State.resetWith Params.default ∧ Params.default.legal = true

/-- R50, R55: every step keeps the context invariants, and no step changes the parameters. -/
def Obligations.StepKeepsContext : Prop :=
  ∀ s t : State, ContextOk s → step s = .next t → ContextOk t ∧ t.cfg = s.cfg

/-- Every step keeps the canonical form of both memories (log 4). -/
def Obligations.StepKeepsMemoryForm : Prop :=
  ∀ s t : State, MemoryOk s → step s = .next t → MemoryOk t

/-- R36, R38, R350: every step keeps DONE = 0 and ERR = OK while a command is latched, and every register at its reset value
while `rst` is asserted. -/
def Obligations.StepKeepsLatchAndReset : Prop :=
  ∀ s t : State, LatchOk s → ResetOk s → step s = .next t → LatchOk t ∧ ResetOk t
end

