-- ==== Sys2Proof/Laws/Aperture.lean ====
section
/-! SUPPORT. Where each offset of the aperture leads, and the bits of a code word: what the statements about windows cite. -/

namespace Sys2Proof.Laws

open Sys2Proof.Machine

/-! ### The aperture map (R81) -/

theorem locate_reserved {a : Nat} (h4 : a % 4 = 0)
    (h : 0x04C ≤ a ∧ a < 0x100000 ∨ 0x300000 ≤ a ∧ a < 0x400000) : locate a = .reserved := by
  unfold locate
  by_cases h1 : a < 0x1000
  · rw [if_pos h1]
    unfold regLoc
    split <;> first | rfl | omega
  · rw [if_neg h1]
    repeat' split
    all_goals first | rfl | omega

theorem locate_node {a : Nat} (h1 : 0x100000 ≤ a) (h2 : a < 0x200000) :
    locate a = .node ((a - 0x100000) / 32) ((a - 0x100000) % 32 / 4) := by
  unfold locate
  rw [if_neg (by omega), if_neg (by omega), if_pos h2]

theorem locate_code {a : Nat} (h1 : 0x200000 ≤ a) (h2 : a < 0x300000) :
    locate a = .code ((a - 0x200000) / 64) ((a - 0x200000) % 64 / 4) := by
  unfold locate
  rw [if_neg (by omega), if_neg (by omega), if_neg (by omega), if_pos h2]

theorem locate_sym {a : Nat} (h1 : 0x400000 ≤ a) (h2 : a < 0x800000) : locate a = .sym ((a - 0x400000) / 4) := by
  unfold locate
  rw [if_neg (by omega), if_neg (by omega), if_neg (by omega), if_neg (by omega), if_neg (by omega), if_pos h2]

theorem locate_byt {a : Nat} (h1 : 0x800000 ≤ a) : locate a = .byt ((a - 0x800000) / 4) := by
  unfold locate
  rw [if_neg (by omega), if_neg (by omega), if_neg (by omega), if_neg (by omega), if_neg (by omega), if_neg (by omega)]

/-- The data windows are the offsets from 0x400000 up. -/
theorem inDataWindow_locate (a : Nat) : inDataWindow (locate a) = true ↔ 0x400000 ≤ a := by
  unfold locate
  split
  · unfold regLoc
    split <;> simp [inDataWindow] <;> omega
  · repeat' split
    all_goals simp [inDataWindow]
    all_goals omega

/-! ### Bit strings as numbers -/

theorem bitsToNat_append (c : Bits) (b : Bool) : bitsToNat (c ++ [b]) = 2 * bitsToNat c + b.toNat := by
  simp [bitsToNat]

/-- Bit `i` of a string, counted from its first bit, is bit `length − 1 − i` of its number (R127, R58). -/
theorem bitsToNat_testBit (bits : Bits) (i : Nat) (h : i < bits.length) :
    (bitsToNat bits).testBit (bits.length - 1 - i) = bits[i] := by
  induction bits using List.reverseRecOn with
  | nil => simp at h
  | append_singleton front b ih =>
    rw [bitsToNat_append]
    by_cases hi : i < front.length
    · have e : (front ++ [b]).length - 1 - i = (front.length - 1 - i) + 1 := by simp; omega
      have half : (2 * bitsToNat front + b.toNat) / 2 = bitsToNat front := by cases b <;> simp <;> omega
      rw [e, Nat.testBit_succ, half, ih hi, List.getElem_append_left hi]
    · obtain rfl : i = front.length := by simp at h; omega
      simp
      cases b <;> simp

end Sys2Proof.Laws
end

