-- ==== Sys2Proof/Laws/Memory.lean ====
section
/-! SUPPORT. The laws of the memory lists: a read after a write, and that every memory operation keeps the canonical form. -/

namespace Sys2Proof.Laws

open Sys2Proof.Machine

variable {α : Type}

/-- A read after one write gives the value written, and any other location is as before. -/
@[simp] theorem cellFind_cellPut (m : List (Nat × α)) (a b : Nat) (v : α) :
    cellFind (cellPut a v m) b = if b = a then some v else cellFind m b := by
  induction m with
  | nil => simp [cellPut, cellFind]
  | cons h m ih =>
    obtain ⟨k, w⟩ := h
    by_cases h1 : a < k
    · simp [cellPut, h1, cellFind]
    · by_cases h2 : a = k
      · subst h2
        by_cases h3 : b = a <;> simp [cellPut, cellFind, h3]
      · by_cases h3 : b = k
        · subst h3
          have h4 : ¬ b = a := fun h => h2 h.symm
          simp [cellPut, h1, h2, cellFind, h4]
        · simp [cellPut, h1, h2, cellFind, h3, ih]

/-- A run of values from address `a` records its values and nothing else. -/
theorem cellFind_cellRun_append (vs : List α) (m : List (Nat × α)) (a i : Nat) :
    cellFind (cellRun a vs ++ m) i = if a ≤ i ∧ i < a + vs.length then vs[i - a]? else cellFind m i := by
  induction vs generalizing a with
  | nil =>
    have h : ¬ (a ≤ i ∧ i < a + ([] : List α).length) := by simp
    rw [if_neg h]; simp [cellRun]
  | cons v vs ih =>
    simp only [cellRun, List.cons_append, cellFind, ih, List.length_cons]
    by_cases h1 : i = a
    · subst h1; simp
    · by_cases h2 : a + 1 ≤ i ∧ i < a + 1 + vs.length
      · have h3 : a ≤ i ∧ i < a + (vs.length + 1) := by omega
        have h4 : i - a = (i - (a + 1)) + 1 := by omega
        simp [h1, h2, h3, h4]
      · have h3 : ¬ (a ≤ i ∧ i < a + (vs.length + 1)) := by omega
        rw [if_neg h1, if_neg h2, if_neg h3]

/-- Dropping the locations below `n` keeps the rest. -/
theorem cellFind_filter_ge (m : List (Nat × α)) (n i : Nat) (h : n ≤ i) :
    cellFind (m.filter (fun c => n ≤ c.1)) i = cellFind m i := by
  induction m with
  | nil => rfl
  | cons c m ih =>
    obtain ⟨k, w⟩ := c
    by_cases h1 : n ≤ k
    · simp [h1, cellFind, ih]
    · have h2 : ¬ i = k := by omega
      simp [h1, cellFind, h2, ih]

/-- After a fill from address 0 the filled locations read the values, and every other location is as before. -/
@[simp] theorem cellFind_cellFill (vs : List α) (m : List (Nat × α)) (i : Nat) :
    cellFind (cellFill vs m) i = if i < vs.length then vs[i]? else cellFind m i := by
  unfold cellFill
  rw [cellFind_cellRun_append]
  by_cases h : i < vs.length
  · simp [h]
  · have h1 : ¬ (0 ≤ i ∧ i < 0 + vs.length) := by omega
    rw [if_neg h1, if_neg h, cellFind_filter_ge _ _ _ (by omega)]

/-- The canonical form says: addresses strictly rising, each below the size. -/
theorem memory_wf_iff (size : Nat) (m : List (Nat × α)) :
    Memory.wf size m = true ↔ m.Pairwise (fun c d => c.1 < d.1) ∧ ∀ c ∈ m, c.1 < size := by
  induction m with
  | nil => simp [Memory.wf]
  | cons c m ih =>
    obtain ⟨a, v⟩ := c
    cases m with
    | nil => simp [Memory.wf]
    | cons d m =>
      obtain ⟨b, w⟩ := d
      simp only [Memory.wf, Bool.and_eq_true, decide_eq_true_eq, ih, List.pairwise_cons, List.mem_cons,
        forall_eq_or_imp]
      constructor
      · rintro ⟨h, ⟨hp, hr⟩, hb, hm⟩
        exact ⟨⟨⟨h, fun x hx => lt_trans h (hp x hx)⟩, hp, hr⟩, lt_trans h hb, hb, hm⟩
      · rintro ⟨⟨⟨h, _⟩, hp, hr⟩, _, hb, hm⟩
        exact ⟨h, ⟨hp, hr⟩, hb, hm⟩

/-- The addresses a write leaves listed are the old ones and the written one. -/
theorem mem_cellPut {m : List (Nat × α)} {a : Nat} {v : α} {c : Nat × α} (h : c ∈ cellPut a v m) :
    c = (a, v) ∨ c ∈ m := by
  induction m with
  | nil => simpa [cellPut] using h
  | cons d m ih =>
    obtain ⟨b, w⟩ := d
    unfold cellPut at h
    split at h
    · simpa using h
    · split at h
      · rcases List.mem_cons.1 h with h | h
        · exact .inl h
        · exact .inr (List.mem_cons_of_mem _ h)
      · rcases List.mem_cons.1 h with h | h
        · exact .inr (h ▸ List.mem_cons_self)
        · exact (ih h).imp id (List.mem_cons_of_mem _)

/-- A write keeps the canonical form. -/
theorem cellPut_wf {size : Nat} {m : List (Nat × α)} {a : Nat} (v : α) (hm : Memory.wf size m = true) (ha : a < size) :
    Memory.wf size (cellPut a v m) = true := by
  rw [memory_wf_iff] at hm ⊢
  obtain ⟨hp, hs⟩ := hm
  refine ⟨?_, fun c hc => (mem_cellPut hc).elim (fun h => h ▸ ha) (hs c)⟩
  clear hs ha
  induction m with
  | nil => simp [cellPut]
  | cons d m ih =>
    obtain ⟨b, w⟩ := d
    obtain ⟨h1, h2⟩ := List.pairwise_cons.1 hp
    unfold cellPut
    split
    · rename_i h
      refine List.pairwise_cons.2 ⟨?_, hp⟩
      intro c hc
      rcases List.mem_cons.1 hc with hc | hc
      · exact hc ▸ h
      · exact lt_trans h (h1 c hc)
    · split
      · rename_i h
        exact List.pairwise_cons.2 ⟨fun c hc => h ▸ h1 c hc, h2⟩
      · refine List.pairwise_cons.2 ⟨?_, ih h2⟩
        intro c hc
        rcases mem_cellPut hc with hc | hc
        · subst hc; simp only; omega
        · exact h1 c hc

/-- The addresses of a run are `a` up to its end. -/
theorem mem_cellRun {vs : List α} {a : Nat} {c : Nat × α} (h : c ∈ cellRun a vs) : a ≤ c.1 ∧ c.1 < a + vs.length := by
  induction vs generalizing a with
  | nil => simp [cellRun] at h
  | cons v vs ih =>
    rcases List.mem_cons.1 h with h | h
    · subst h; simp
    · have := ih h; simp only [List.length_cons]; omega

/-- The addresses of a run rise. -/
theorem cellRun_pairwise (vs : List α) (a : Nat) : (cellRun a vs).Pairwise (fun c d => c.1 < d.1) := by
  induction vs generalizing a with
  | nil => exact List.Pairwise.nil
  | cons v vs ih =>
    refine List.pairwise_cons.2 ⟨fun c hc => ?_, ih _⟩
    have := mem_cellRun hc; simp only; omega

/-- A fill within the size keeps the canonical form. -/
theorem cellFill_wf {size : Nat} {m : List (Nat × α)} {vs : List α} (hm : Memory.wf size m = true)
    (hs : vs.length ≤ size) : Memory.wf size (cellFill vs m) = true := by
  rw [memory_wf_iff] at hm ⊢
  obtain ⟨hp, hl⟩ := hm
  unfold cellFill
  refine ⟨List.pairwise_append.2 ⟨cellRun_pairwise vs 0, hp.filter _, fun c hc d hd => ?_⟩, fun c hc => ?_⟩
  · have h1 := mem_cellRun hc
    have h2 : vs.length ≤ d.1 := by simpa using (List.mem_filter.1 hd).2
    omega
  · rcases List.mem_append.1 hc with hc | hc
    · have := mem_cellRun hc; omega
    · exact hl c (List.mem_filter.1 hc).1

/-- Node RAM: a write at the next free index leaves the earlier records (log 12). -/
@[simp] theorem nodeGet_nodePut_lt (ns : List Node) {n k : Nat} (r : Node) (h : k < n) :
    nodeGet (nodePut ns n r) k = nodeGet ns k := by
  unfold nodeGet nodePut
  by_cases hk : k < ns.length
  · rw [List.append_assoc, List.getElem?_append_left (by simp; omega), List.getElem?_take_of_lt h]
  · rw [List.take_of_length_le (by omega), List.append_assoc, List.getElem?_append_right (by omega),
      List.getElem?_append_left (by simp; omega), List.getElem?_replicate]
    have h1 : k - ns.length < n - ns.length := by omega
    have h2 : ns[k]? = none := List.getElem?_eq_none (by omega)
    simp [h1, h2]

/-- Node RAM: the record written at the next free index reads back (log 12). -/
@[simp] theorem nodeGet_nodePut_self (ns : List Node) (n : Nat) (r : Node) : nodeGet (nodePut ns n r) n = r := by
  have hl : (ns.take n ++ List.replicate (n - ns.length) emptyNode).length = n := by
    simp; omega
  unfold nodeGet nodePut
  rw [List.getElem?_append_right (by omega), hl]
  simp

/-- Node RAM: after a write at index `n` records 0 to n are held. -/
@[simp] theorem length_nodePut (ns : List Node) (n : Nat) (r : Node) : (nodePut ns n r).length = n + 1 := by
  simp [nodePut]; omega

/-- A slice of node RAM has its length. -/
@[simp] theorem length_nodeSlice (ns : List Node) (k : Nat) : (nodeSlice ns k).length = k := by simp [nodeSlice]

/-- A slice of node RAM reads as the RAM does. -/
theorem nodeGet_nodeSlice (ns : List Node) {n k : Nat} (h : n < k) : nodeGet (nodeSlice ns k) n = nodeGet ns n := by
  simp [nodeGet, nodeSlice, h]

/-- Within the records held, a slice of node RAM is a prefix of it. -/
theorem nodeSlice_eq_take (ns : List Node) {k : Nat} (h : k ≤ ns.length) : nodeSlice ns k = ns.take k := by
  apply List.ext_getElem?
  intro i
  by_cases hi : i < k
  · have : i < ns.length := by omega
    simp [nodeSlice, nodeGet, hi, this]
  · rw [List.getElem?_eq_none (by simp; omega), List.getElem?_eq_none (by simp; omega)]

end Sys2Proof.Laws
end

