-- ==== Sys2Proof/Laws/State.lean ====
section
/-! SUPPORT. One lemma per field per named update of the state, each true by rfl, so that no later proof unfolds a record update. -/

namespace Sys2Proof.Laws

open Sys2Proof.Machine

/-! ### `finish` -/

@[simp] theorem finish_cfg (e : Status) (s : State) : (finish e s).cfg = s.cfg := rfl
@[simp] theorem finish_rst (e : Status) (s : State) : (finish e s).rst = s.rst := rfl
@[simp] theorem finish_irqEn (e : Status) (s : State) : (finish e s).irqEn = s.irqEn := rfl
@[simp] theorem finish_busy (e : Status) (s : State) : (finish e s).busy = none := rfl
@[simp] theorem finish_done (e : Status) (s : State) : (finish e s).done = true := rfl
@[simp] theorem finish_cmdDropped (e : Status) (s : State) : (finish e s).cmdDropped = s.cmdDropped := rfl
@[simp] theorem finish_err (e : Status) (s : State) : (finish e s).err = e := rfl
@[simp] theorem finish_phase (e : Status) (s : State) : (finish e s).phase = s.phase := rfl
@[simp] theorem finish_arg0 (e : Status) (s : State) : (finish e s).arg0 = s.arg0 := rfl
@[simp] theorem finish_arg1 (e : Status) (s : State) : (finish e s).arg1 = s.arg1 := rfl
@[simp] theorem finish_res0 (e : Status) (s : State) : (finish e s).res0 = s.res0 := rfl
@[simp] theorem finish_res1 (e : Status) (s : State) : (finish e s).res1 = s.res1 := rfl
@[simp] theorem finish_res2 (e : Status) (s : State) : (finish e s).res2 = s.res2 := rfl
@[simp] theorem finish_outLen (e : Status) (s : State) : (finish e s).outLen = s.outLen := rfl
@[simp] theorem finish_leafCount (e : Status) (s : State) : (finish e s).leafCount = s.leafCount := rfl
@[simp] theorem finish_total (e : Status) (s : State) : (finish e s).total = s.total := rfl
@[simp] theorem finish_nodeCount (e : Status) (s : State) : (finish e s).nodeCount = s.nodeCount := rfl
@[simp] theorem finish_nodes (e : Status) (s : State) : (finish e s).nodes = s.nodes := rfl
@[simp] theorem finish_ctCount (e : Status) (s : State) : (finish e s).ctCount = s.ctCount := rfl
@[simp] theorem finish_ct (e : Status) (s : State) : (finish e s).ct = s.ct := rfl
@[simp] theorem finish_sym (e : Status) (s : State) : (finish e s).sym = s.sym := rfl
@[simp] theorem finish_byt (e : Status) (s : State) : (finish e s).byt = s.byt := rfl
@[simp] theorem finish_epoch (e : Status) (s : State) : (finish e s).epoch = s.epoch := rfl
@[simp] theorem finish_draws (e : Status) (s : State) : (finish e s).draws = s.draws := rfl
@[simp] theorem finish_script (e : Status) (s : State) : (finish e s).script = s.script := rfl
@[simp] theorem finish_turns (e : Status) (s : State) : (finish e s).turns = s.turns := rfl
@[simp] theorem finish_reads (e : Status) (s : State) : (finish e s).reads = s.reads := rfl

/-! ### `setRes` -/

@[simp] theorem setRes_cfg (r0 r1 r2 : Word) (s : State) : (setRes r0 r1 r2 s).cfg = s.cfg := rfl
@[simp] theorem setRes_rst (r0 r1 r2 : Word) (s : State) : (setRes r0 r1 r2 s).rst = s.rst := rfl
@[simp] theorem setRes_irqEn (r0 r1 r2 : Word) (s : State) : (setRes r0 r1 r2 s).irqEn = s.irqEn := rfl
@[simp] theorem setRes_busy (r0 r1 r2 : Word) (s : State) : (setRes r0 r1 r2 s).busy = s.busy := rfl
@[simp] theorem setRes_done (r0 r1 r2 : Word) (s : State) : (setRes r0 r1 r2 s).done = s.done := rfl
@[simp] theorem setRes_cmdDropped (r0 r1 r2 : Word) (s : State) : (setRes r0 r1 r2 s).cmdDropped = s.cmdDropped := rfl
@[simp] theorem setRes_err (r0 r1 r2 : Word) (s : State) : (setRes r0 r1 r2 s).err = s.err := rfl
@[simp] theorem setRes_phase (r0 r1 r2 : Word) (s : State) : (setRes r0 r1 r2 s).phase = s.phase := rfl
@[simp] theorem setRes_arg0 (r0 r1 r2 : Word) (s : State) : (setRes r0 r1 r2 s).arg0 = s.arg0 := rfl
@[simp] theorem setRes_arg1 (r0 r1 r2 : Word) (s : State) : (setRes r0 r1 r2 s).arg1 = s.arg1 := rfl
@[simp] theorem setRes_res0 (r0 r1 r2 : Word) (s : State) : (setRes r0 r1 r2 s).res0 = r0 := rfl
@[simp] theorem setRes_res1 (r0 r1 r2 : Word) (s : State) : (setRes r0 r1 r2 s).res1 = r1 := rfl
@[simp] theorem setRes_res2 (r0 r1 r2 : Word) (s : State) : (setRes r0 r1 r2 s).res2 = r2 := rfl
@[simp] theorem setRes_outLen (r0 r1 r2 : Word) (s : State) : (setRes r0 r1 r2 s).outLen = s.outLen := rfl
@[simp] theorem setRes_leafCount (r0 r1 r2 : Word) (s : State) : (setRes r0 r1 r2 s).leafCount = s.leafCount := rfl
@[simp] theorem setRes_total (r0 r1 r2 : Word) (s : State) : (setRes r0 r1 r2 s).total = s.total := rfl
@[simp] theorem setRes_nodeCount (r0 r1 r2 : Word) (s : State) : (setRes r0 r1 r2 s).nodeCount = s.nodeCount := rfl
@[simp] theorem setRes_nodes (r0 r1 r2 : Word) (s : State) : (setRes r0 r1 r2 s).nodes = s.nodes := rfl
@[simp] theorem setRes_ctCount (r0 r1 r2 : Word) (s : State) : (setRes r0 r1 r2 s).ctCount = s.ctCount := rfl
@[simp] theorem setRes_ct (r0 r1 r2 : Word) (s : State) : (setRes r0 r1 r2 s).ct = s.ct := rfl
@[simp] theorem setRes_sym (r0 r1 r2 : Word) (s : State) : (setRes r0 r1 r2 s).sym = s.sym := rfl
@[simp] theorem setRes_byt (r0 r1 r2 : Word) (s : State) : (setRes r0 r1 r2 s).byt = s.byt := rfl
@[simp] theorem setRes_epoch (r0 r1 r2 : Word) (s : State) : (setRes r0 r1 r2 s).epoch = s.epoch := rfl
@[simp] theorem setRes_draws (r0 r1 r2 : Word) (s : State) : (setRes r0 r1 r2 s).draws = s.draws := rfl
@[simp] theorem setRes_script (r0 r1 r2 : Word) (s : State) : (setRes r0 r1 r2 s).script = s.script := rfl
@[simp] theorem setRes_turns (r0 r1 r2 : Word) (s : State) : (setRes r0 r1 r2 s).turns = s.turns := rfl
@[simp] theorem setRes_reads (r0 r1 r2 : Word) (s : State) : (setRes r0 r1 r2 s).reads = s.reads := rfl

/-! ### `clearContext` -/

@[simp] theorem clearContext_cfg (s : State) : (clearContext s).cfg = s.cfg := rfl
@[simp] theorem clearContext_rst (s : State) : (clearContext s).rst = s.rst := rfl
@[simp] theorem clearContext_irqEn (s : State) : (clearContext s).irqEn = s.irqEn := rfl
@[simp] theorem clearContext_busy (s : State) : (clearContext s).busy = s.busy := rfl
@[simp] theorem clearContext_done (s : State) : (clearContext s).done = s.done := rfl
@[simp] theorem clearContext_cmdDropped (s : State) : (clearContext s).cmdDropped = s.cmdDropped := rfl
@[simp] theorem clearContext_err (s : State) : (clearContext s).err = s.err := rfl
@[simp] theorem clearContext_phase (s : State) : (clearContext s).phase = .empty := rfl
@[simp] theorem clearContext_arg0 (s : State) : (clearContext s).arg0 = s.arg0 := rfl
@[simp] theorem clearContext_arg1 (s : State) : (clearContext s).arg1 = s.arg1 := rfl
@[simp] theorem clearContext_res0 (s : State) : (clearContext s).res0 = s.res0 := rfl
@[simp] theorem clearContext_res1 (s : State) : (clearContext s).res1 = s.res1 := rfl
@[simp] theorem clearContext_res2 (s : State) : (clearContext s).res2 = s.res2 := rfl
@[simp] theorem clearContext_outLen (s : State) : (clearContext s).outLen = s.outLen := rfl
@[simp] theorem clearContext_leafCount (s : State) : (clearContext s).leafCount = 0 := rfl
@[simp] theorem clearContext_total (s : State) : (clearContext s).total = 0 := rfl
@[simp] theorem clearContext_nodeCount (s : State) : (clearContext s).nodeCount = 0 := rfl
@[simp] theorem clearContext_nodes (s : State) : (clearContext s).nodes = [] := rfl
@[simp] theorem clearContext_ctCount (s : State) : (clearContext s).ctCount = 0 := rfl
@[simp] theorem clearContext_ct (s : State) : (clearContext s).ct = [] := rfl
@[simp] theorem clearContext_sym (s : State) : (clearContext s).sym = s.sym := rfl
@[simp] theorem clearContext_byt (s : State) : (clearContext s).byt = s.byt := rfl
@[simp] theorem clearContext_epoch (s : State) : (clearContext s).epoch = s.epoch := rfl
@[simp] theorem clearContext_draws (s : State) : (clearContext s).draws = s.draws := rfl
@[simp] theorem clearContext_script (s : State) : (clearContext s).script = s.script := rfl
@[simp] theorem clearContext_turns (s : State) : (clearContext s).turns = s.turns := rfl
@[simp] theorem clearContext_reads (s : State) : (clearContext s).reads = s.reads := rfl

/-! ### `loadLeaf` -/

@[simp] theorem loadLeaf_cfg (a0 a1 : Word) (s : State) : (loadLeaf a0 a1 s).cfg = s.cfg := rfl
@[simp] theorem loadLeaf_rst (a0 a1 : Word) (s : State) : (loadLeaf a0 a1 s).rst = s.rst := rfl
@[simp] theorem loadLeaf_irqEn (a0 a1 : Word) (s : State) : (loadLeaf a0 a1 s).irqEn = s.irqEn := rfl
@[simp] theorem loadLeaf_busy (a0 a1 : Word) (s : State) : (loadLeaf a0 a1 s).busy = s.busy := rfl
@[simp] theorem loadLeaf_done (a0 a1 : Word) (s : State) : (loadLeaf a0 a1 s).done = s.done := rfl
@[simp] theorem loadLeaf_cmdDropped (a0 a1 : Word) (s : State) : (loadLeaf a0 a1 s).cmdDropped = s.cmdDropped := rfl
@[simp] theorem loadLeaf_err (a0 a1 : Word) (s : State) : (loadLeaf a0 a1 s).err = s.err := rfl
@[simp] theorem loadLeaf_phase (a0 a1 : Word) (s : State) : (loadLeaf a0 a1 s).phase = .loading := rfl
@[simp] theorem loadLeaf_arg0 (a0 a1 : Word) (s : State) : (loadLeaf a0 a1 s).arg0 = s.arg0 := rfl
@[simp] theorem loadLeaf_arg1 (a0 a1 : Word) (s : State) : (loadLeaf a0 a1 s).arg1 = s.arg1 := rfl
@[simp] theorem loadLeaf_res0 (a0 a1 : Word) (s : State) : (loadLeaf a0 a1 s).res0 = s.res0 := rfl
@[simp] theorem loadLeaf_res1 (a0 a1 : Word) (s : State) : (loadLeaf a0 a1 s).res1 = s.res1 := rfl
@[simp] theorem loadLeaf_res2 (a0 a1 : Word) (s : State) : (loadLeaf a0 a1 s).res2 = s.res2 := rfl
@[simp] theorem loadLeaf_outLen (a0 a1 : Word) (s : State) : (loadLeaf a0 a1 s).outLen = s.outLen := rfl
@[simp] theorem loadLeaf_leafCount (a0 a1 : Word) (s : State) : (loadLeaf a0 a1 s).leafCount = s.leafCount + 1 := rfl
@[simp] theorem loadLeaf_total (a0 a1 : Word) (s : State) : (loadLeaf a0 a1 s).total = s.total + a1 := rfl
@[simp] theorem loadLeaf_nodeCount (a0 a1 : Word) (s : State) : (loadLeaf a0 a1 s).nodeCount = s.leafCount + 1 := rfl
@[simp] theorem loadLeaf_nodes (a0 a1 : Word) (s : State) : (loadLeaf a0 a1 s).nodes = nodePut s.nodes s.leafCount (leafNode a0 a1) := rfl
@[simp] theorem loadLeaf_ctCount (a0 a1 : Word) (s : State) : (loadLeaf a0 a1 s).ctCount = s.ctCount := rfl
@[simp] theorem loadLeaf_ct (a0 a1 : Word) (s : State) : (loadLeaf a0 a1 s).ct = s.ct := rfl
@[simp] theorem loadLeaf_sym (a0 a1 : Word) (s : State) : (loadLeaf a0 a1 s).sym = s.sym := rfl
@[simp] theorem loadLeaf_byt (a0 a1 : Word) (s : State) : (loadLeaf a0 a1 s).byt = s.byt := rfl
@[simp] theorem loadLeaf_epoch (a0 a1 : Word) (s : State) : (loadLeaf a0 a1 s).epoch = s.epoch := rfl
@[simp] theorem loadLeaf_draws (a0 a1 : Word) (s : State) : (loadLeaf a0 a1 s).draws = s.draws := rfl
@[simp] theorem loadLeaf_script (a0 a1 : Word) (s : State) : (loadLeaf a0 a1 s).script = s.script := rfl
@[simp] theorem loadLeaf_turns (a0 a1 : Word) (s : State) : (loadLeaf a0 a1 s).turns = s.turns := rfl
@[simp] theorem loadLeaf_reads (a0 a1 : Word) (s : State) : (loadLeaf a0 a1 s).reads = s.reads := rfl

/-! ### `setTree` -/

@[simp] theorem setTree_cfg (ns : List Node) (s : State) : (setTree ns s).cfg = s.cfg := rfl
@[simp] theorem setTree_rst (ns : List Node) (s : State) : (setTree ns s).rst = s.rst := rfl
@[simp] theorem setTree_irqEn (ns : List Node) (s : State) : (setTree ns s).irqEn = s.irqEn := rfl
@[simp] theorem setTree_busy (ns : List Node) (s : State) : (setTree ns s).busy = s.busy := rfl
@[simp] theorem setTree_done (ns : List Node) (s : State) : (setTree ns s).done = s.done := rfl
@[simp] theorem setTree_cmdDropped (ns : List Node) (s : State) : (setTree ns s).cmdDropped = s.cmdDropped := rfl
@[simp] theorem setTree_err (ns : List Node) (s : State) : (setTree ns s).err = s.err := rfl
@[simp] theorem setTree_phase (ns : List Node) (s : State) : (setTree ns s).phase = .treeBuilt := rfl
@[simp] theorem setTree_arg0 (ns : List Node) (s : State) : (setTree ns s).arg0 = s.arg0 := rfl
@[simp] theorem setTree_arg1 (ns : List Node) (s : State) : (setTree ns s).arg1 = s.arg1 := rfl
@[simp] theorem setTree_res0 (ns : List Node) (s : State) : (setTree ns s).res0 = s.res0 := rfl
@[simp] theorem setTree_res1 (ns : List Node) (s : State) : (setTree ns s).res1 = s.res1 := rfl
@[simp] theorem setTree_res2 (ns : List Node) (s : State) : (setTree ns s).res2 = s.res2 := rfl
@[simp] theorem setTree_outLen (ns : List Node) (s : State) : (setTree ns s).outLen = s.outLen := rfl
@[simp] theorem setTree_leafCount (ns : List Node) (s : State) : (setTree ns s).leafCount = s.leafCount := rfl
@[simp] theorem setTree_total (ns : List Node) (s : State) : (setTree ns s).total = s.total := rfl
@[simp] theorem setTree_nodeCount (ns : List Node) (s : State) : (setTree ns s).nodeCount = ns.length := rfl
@[simp] theorem setTree_nodes (ns : List Node) (s : State) : (setTree ns s).nodes = ns := rfl
@[simp] theorem setTree_ctCount (ns : List Node) (s : State) : (setTree ns s).ctCount = s.ctCount := rfl
@[simp] theorem setTree_ct (ns : List Node) (s : State) : (setTree ns s).ct = s.ct := rfl
@[simp] theorem setTree_sym (ns : List Node) (s : State) : (setTree ns s).sym = s.sym := rfl
@[simp] theorem setTree_byt (ns : List Node) (s : State) : (setTree ns s).byt = s.byt := rfl
@[simp] theorem setTree_epoch (ns : List Node) (s : State) : (setTree ns s).epoch = s.epoch := rfl
@[simp] theorem setTree_draws (ns : List Node) (s : State) : (setTree ns s).draws = s.draws := rfl
@[simp] theorem setTree_script (ns : List Node) (s : State) : (setTree ns s).script = s.script := rfl
@[simp] theorem setTree_turns (ns : List Node) (s : State) : (setTree ns s).turns = s.turns := rfl
@[simp] theorem setTree_reads (ns : List Node) (s : State) : (setTree ns s).reads = s.reads := rfl

/-! ### `setCodes` -/

@[simp] theorem setCodes_cfg (ct : List CodeEntry) (s : State) : (setCodes ct s).cfg = s.cfg := rfl
@[simp] theorem setCodes_rst (ct : List CodeEntry) (s : State) : (setCodes ct s).rst = s.rst := rfl
@[simp] theorem setCodes_irqEn (ct : List CodeEntry) (s : State) : (setCodes ct s).irqEn = s.irqEn := rfl
@[simp] theorem setCodes_busy (ct : List CodeEntry) (s : State) : (setCodes ct s).busy = s.busy := rfl
@[simp] theorem setCodes_done (ct : List CodeEntry) (s : State) : (setCodes ct s).done = s.done := rfl
@[simp] theorem setCodes_cmdDropped (ct : List CodeEntry) (s : State) : (setCodes ct s).cmdDropped = s.cmdDropped := rfl
@[simp] theorem setCodes_err (ct : List CodeEntry) (s : State) : (setCodes ct s).err = s.err := rfl
@[simp] theorem setCodes_phase (ct : List CodeEntry) (s : State) : (setCodes ct s).phase = .codesReady := rfl
@[simp] theorem setCodes_arg0 (ct : List CodeEntry) (s : State) : (setCodes ct s).arg0 = s.arg0 := rfl
@[simp] theorem setCodes_arg1 (ct : List CodeEntry) (s : State) : (setCodes ct s).arg1 = s.arg1 := rfl
@[simp] theorem setCodes_res0 (ct : List CodeEntry) (s : State) : (setCodes ct s).res0 = s.res0 := rfl
@[simp] theorem setCodes_res1 (ct : List CodeEntry) (s : State) : (setCodes ct s).res1 = s.res1 := rfl
@[simp] theorem setCodes_res2 (ct : List CodeEntry) (s : State) : (setCodes ct s).res2 = s.res2 := rfl
@[simp] theorem setCodes_outLen (ct : List CodeEntry) (s : State) : (setCodes ct s).outLen = s.outLen := rfl
@[simp] theorem setCodes_leafCount (ct : List CodeEntry) (s : State) : (setCodes ct s).leafCount = s.leafCount := rfl
@[simp] theorem setCodes_total (ct : List CodeEntry) (s : State) : (setCodes ct s).total = s.total := rfl
@[simp] theorem setCodes_nodeCount (ct : List CodeEntry) (s : State) : (setCodes ct s).nodeCount = s.nodeCount := rfl
@[simp] theorem setCodes_nodes (ct : List CodeEntry) (s : State) : (setCodes ct s).nodes = s.nodes := rfl
@[simp] theorem setCodes_ctCount (ct : List CodeEntry) (s : State) : (setCodes ct s).ctCount = ct.length := rfl
@[simp] theorem setCodes_ct (ct : List CodeEntry) (s : State) : (setCodes ct s).ct = ct := rfl
@[simp] theorem setCodes_sym (ct : List CodeEntry) (s : State) : (setCodes ct s).sym = s.sym := rfl
@[simp] theorem setCodes_byt (ct : List CodeEntry) (s : State) : (setCodes ct s).byt = s.byt := rfl
@[simp] theorem setCodes_epoch (ct : List CodeEntry) (s : State) : (setCodes ct s).epoch = s.epoch := rfl
@[simp] theorem setCodes_draws (ct : List CodeEntry) (s : State) : (setCodes ct s).draws = s.draws := rfl
@[simp] theorem setCodes_script (ct : List CodeEntry) (s : State) : (setCodes ct s).script = s.script := rfl
@[simp] theorem setCodes_turns (ct : List CodeEntry) (s : State) : (setCodes ct s).turns = s.turns := rfl
@[simp] theorem setCodes_reads (ct : List CodeEntry) (s : State) : (setCodes ct s).reads = s.reads := rfl

/-! ### `symFill` -/

@[simp] theorem symFill_cfg (s : State) (vs : List Word) : (symFill s vs).cfg = s.cfg := rfl
@[simp] theorem symFill_rst (s : State) (vs : List Word) : (symFill s vs).rst = s.rst := rfl
@[simp] theorem symFill_irqEn (s : State) (vs : List Word) : (symFill s vs).irqEn = s.irqEn := rfl
@[simp] theorem symFill_busy (s : State) (vs : List Word) : (symFill s vs).busy = s.busy := rfl
@[simp] theorem symFill_done (s : State) (vs : List Word) : (symFill s vs).done = s.done := rfl
@[simp] theorem symFill_cmdDropped (s : State) (vs : List Word) : (symFill s vs).cmdDropped = s.cmdDropped := rfl
@[simp] theorem symFill_err (s : State) (vs : List Word) : (symFill s vs).err = s.err := rfl
@[simp] theorem symFill_phase (s : State) (vs : List Word) : (symFill s vs).phase = s.phase := rfl
@[simp] theorem symFill_arg0 (s : State) (vs : List Word) : (symFill s vs).arg0 = s.arg0 := rfl
@[simp] theorem symFill_arg1 (s : State) (vs : List Word) : (symFill s vs).arg1 = s.arg1 := rfl
@[simp] theorem symFill_res0 (s : State) (vs : List Word) : (symFill s vs).res0 = s.res0 := rfl
@[simp] theorem symFill_res1 (s : State) (vs : List Word) : (symFill s vs).res1 = s.res1 := rfl
@[simp] theorem symFill_res2 (s : State) (vs : List Word) : (symFill s vs).res2 = s.res2 := rfl
@[simp] theorem symFill_outLen (s : State) (vs : List Word) : (symFill s vs).outLen = s.outLen := rfl
@[simp] theorem symFill_leafCount (s : State) (vs : List Word) : (symFill s vs).leafCount = s.leafCount := rfl
@[simp] theorem symFill_total (s : State) (vs : List Word) : (symFill s vs).total = s.total := rfl
@[simp] theorem symFill_nodeCount (s : State) (vs : List Word) : (symFill s vs).nodeCount = s.nodeCount := rfl
@[simp] theorem symFill_nodes (s : State) (vs : List Word) : (symFill s vs).nodes = s.nodes := rfl
@[simp] theorem symFill_ctCount (s : State) (vs : List Word) : (symFill s vs).ctCount = s.ctCount := rfl
@[simp] theorem symFill_ct (s : State) (vs : List Word) : (symFill s vs).ct = s.ct := rfl
@[simp] theorem symFill_sym (s : State) (vs : List Word) : (symFill s vs).sym = cellFill vs s.sym := rfl
@[simp] theorem symFill_byt (s : State) (vs : List Word) : (symFill s vs).byt = s.byt := rfl
@[simp] theorem symFill_epoch (s : State) (vs : List Word) : (symFill s vs).epoch = s.epoch := rfl
@[simp] theorem symFill_draws (s : State) (vs : List Word) : (symFill s vs).draws = s.draws := rfl
@[simp] theorem symFill_script (s : State) (vs : List Word) : (symFill s vs).script = s.script := rfl
@[simp] theorem symFill_turns (s : State) (vs : List Word) : (symFill s vs).turns = s.turns := rfl
@[simp] theorem symFill_reads (s : State) (vs : List Word) : (symFill s vs).reads = s.reads := rfl

/-! ### `bytFill` -/

@[simp] theorem bytFill_cfg (s : State) (vs : List Byte) : (bytFill s vs).cfg = s.cfg := rfl
@[simp] theorem bytFill_rst (s : State) (vs : List Byte) : (bytFill s vs).rst = s.rst := rfl
@[simp] theorem bytFill_irqEn (s : State) (vs : List Byte) : (bytFill s vs).irqEn = s.irqEn := rfl
@[simp] theorem bytFill_busy (s : State) (vs : List Byte) : (bytFill s vs).busy = s.busy := rfl
@[simp] theorem bytFill_done (s : State) (vs : List Byte) : (bytFill s vs).done = s.done := rfl
@[simp] theorem bytFill_cmdDropped (s : State) (vs : List Byte) : (bytFill s vs).cmdDropped = s.cmdDropped := rfl
@[simp] theorem bytFill_err (s : State) (vs : List Byte) : (bytFill s vs).err = s.err := rfl
@[simp] theorem bytFill_phase (s : State) (vs : List Byte) : (bytFill s vs).phase = s.phase := rfl
@[simp] theorem bytFill_arg0 (s : State) (vs : List Byte) : (bytFill s vs).arg0 = s.arg0 := rfl
@[simp] theorem bytFill_arg1 (s : State) (vs : List Byte) : (bytFill s vs).arg1 = s.arg1 := rfl
@[simp] theorem bytFill_res0 (s : State) (vs : List Byte) : (bytFill s vs).res0 = s.res0 := rfl
@[simp] theorem bytFill_res1 (s : State) (vs : List Byte) : (bytFill s vs).res1 = s.res1 := rfl
@[simp] theorem bytFill_res2 (s : State) (vs : List Byte) : (bytFill s vs).res2 = s.res2 := rfl
@[simp] theorem bytFill_outLen (s : State) (vs : List Byte) : (bytFill s vs).outLen = s.outLen := rfl
@[simp] theorem bytFill_leafCount (s : State) (vs : List Byte) : (bytFill s vs).leafCount = s.leafCount := rfl
@[simp] theorem bytFill_total (s : State) (vs : List Byte) : (bytFill s vs).total = s.total := rfl
@[simp] theorem bytFill_nodeCount (s : State) (vs : List Byte) : (bytFill s vs).nodeCount = s.nodeCount := rfl
@[simp] theorem bytFill_nodes (s : State) (vs : List Byte) : (bytFill s vs).nodes = s.nodes := rfl
@[simp] theorem bytFill_ctCount (s : State) (vs : List Byte) : (bytFill s vs).ctCount = s.ctCount := rfl
@[simp] theorem bytFill_ct (s : State) (vs : List Byte) : (bytFill s vs).ct = s.ct := rfl
@[simp] theorem bytFill_sym (s : State) (vs : List Byte) : (bytFill s vs).sym = s.sym := rfl
@[simp] theorem bytFill_byt (s : State) (vs : List Byte) : (bytFill s vs).byt = cellFill vs s.byt := rfl
@[simp] theorem bytFill_epoch (s : State) (vs : List Byte) : (bytFill s vs).epoch = s.epoch := rfl
@[simp] theorem bytFill_draws (s : State) (vs : List Byte) : (bytFill s vs).draws = s.draws := rfl
@[simp] theorem bytFill_script (s : State) (vs : List Byte) : (bytFill s vs).script = s.script := rfl
@[simp] theorem bytFill_turns (s : State) (vs : List Byte) : (bytFill s vs).turns = s.turns := rfl
@[simp] theorem bytFill_reads (s : State) (vs : List Byte) : (bytFill s vs).reads = s.reads := rfl

/-! ### `putContainer` -/

@[simp] theorem putContainer_cfg (c : List Byte) (s : State) : (putContainer c s).cfg = s.cfg := rfl
@[simp] theorem putContainer_rst (c : List Byte) (s : State) : (putContainer c s).rst = s.rst := rfl
@[simp] theorem putContainer_irqEn (c : List Byte) (s : State) : (putContainer c s).irqEn = s.irqEn := rfl
@[simp] theorem putContainer_busy (c : List Byte) (s : State) : (putContainer c s).busy = s.busy := rfl
@[simp] theorem putContainer_done (c : List Byte) (s : State) : (putContainer c s).done = s.done := rfl
@[simp] theorem putContainer_cmdDropped (c : List Byte) (s : State) : (putContainer c s).cmdDropped = s.cmdDropped := rfl
@[simp] theorem putContainer_err (c : List Byte) (s : State) : (putContainer c s).err = s.err := rfl
@[simp] theorem putContainer_phase (c : List Byte) (s : State) : (putContainer c s).phase = s.phase := rfl
@[simp] theorem putContainer_arg0 (c : List Byte) (s : State) : (putContainer c s).arg0 = s.arg0 := rfl
@[simp] theorem putContainer_arg1 (c : List Byte) (s : State) : (putContainer c s).arg1 = s.arg1 := rfl
@[simp] theorem putContainer_res0 (c : List Byte) (s : State) : (putContainer c s).res0 = s.res0 := rfl
@[simp] theorem putContainer_res1 (c : List Byte) (s : State) : (putContainer c s).res1 = s.res1 := rfl
@[simp] theorem putContainer_res2 (c : List Byte) (s : State) : (putContainer c s).res2 = s.res2 := rfl
@[simp] theorem putContainer_outLen (c : List Byte) (s : State) : (putContainer c s).outLen = Word.ofNat c.length := rfl
@[simp] theorem putContainer_leafCount (c : List Byte) (s : State) : (putContainer c s).leafCount = s.leafCount := rfl
@[simp] theorem putContainer_total (c : List Byte) (s : State) : (putContainer c s).total = s.total := rfl
@[simp] theorem putContainer_nodeCount (c : List Byte) (s : State) : (putContainer c s).nodeCount = s.nodeCount := rfl
@[simp] theorem putContainer_nodes (c : List Byte) (s : State) : (putContainer c s).nodes = s.nodes := rfl
@[simp] theorem putContainer_ctCount (c : List Byte) (s : State) : (putContainer c s).ctCount = s.ctCount := rfl
@[simp] theorem putContainer_ct (c : List Byte) (s : State) : (putContainer c s).ct = s.ct := rfl
@[simp] theorem putContainer_sym (c : List Byte) (s : State) : (putContainer c s).sym = s.sym := rfl
@[simp] theorem putContainer_byt (c : List Byte) (s : State) : (putContainer c s).byt = cellFill c s.byt := rfl
@[simp] theorem putContainer_epoch (c : List Byte) (s : State) : (putContainer c s).epoch = s.epoch := rfl
@[simp] theorem putContainer_draws (c : List Byte) (s : State) : (putContainer c s).draws = s.draws := rfl
@[simp] theorem putContainer_script (c : List Byte) (s : State) : (putContainer c s).script = s.script := rfl
@[simp] theorem putContainer_turns (c : List Byte) (s : State) : (putContainer c s).turns = s.turns := rfl
@[simp] theorem putContainer_reads (c : List Byte) (s : State) : (putContainer c s).reads = s.reads := rfl

/-! ### `putSymbols` -/

@[simp] theorem putSymbols_cfg (out : List Word) (s : State) : (putSymbols out s).cfg = s.cfg := rfl
@[simp] theorem putSymbols_rst (out : List Word) (s : State) : (putSymbols out s).rst = s.rst := rfl
@[simp] theorem putSymbols_irqEn (out : List Word) (s : State) : (putSymbols out s).irqEn = s.irqEn := rfl
@[simp] theorem putSymbols_busy (out : List Word) (s : State) : (putSymbols out s).busy = s.busy := rfl
@[simp] theorem putSymbols_done (out : List Word) (s : State) : (putSymbols out s).done = s.done := rfl
@[simp] theorem putSymbols_cmdDropped (out : List Word) (s : State) : (putSymbols out s).cmdDropped = s.cmdDropped := rfl
@[simp] theorem putSymbols_err (out : List Word) (s : State) : (putSymbols out s).err = s.err := rfl
@[simp] theorem putSymbols_phase (out : List Word) (s : State) : (putSymbols out s).phase = s.phase := rfl
@[simp] theorem putSymbols_arg0 (out : List Word) (s : State) : (putSymbols out s).arg0 = s.arg0 := rfl
@[simp] theorem putSymbols_arg1 (out : List Word) (s : State) : (putSymbols out s).arg1 = s.arg1 := rfl
@[simp] theorem putSymbols_res0 (out : List Word) (s : State) : (putSymbols out s).res0 = s.res0 := rfl
@[simp] theorem putSymbols_res1 (out : List Word) (s : State) : (putSymbols out s).res1 = s.res1 := rfl
@[simp] theorem putSymbols_res2 (out : List Word) (s : State) : (putSymbols out s).res2 = s.res2 := rfl
@[simp] theorem putSymbols_outLen (out : List Word) (s : State) : (putSymbols out s).outLen = Word.ofNat out.length := rfl
@[simp] theorem putSymbols_leafCount (out : List Word) (s : State) : (putSymbols out s).leafCount = s.leafCount := rfl
@[simp] theorem putSymbols_total (out : List Word) (s : State) : (putSymbols out s).total = s.total := rfl
@[simp] theorem putSymbols_nodeCount (out : List Word) (s : State) : (putSymbols out s).nodeCount = s.nodeCount := rfl
@[simp] theorem putSymbols_nodes (out : List Word) (s : State) : (putSymbols out s).nodes = s.nodes := rfl
@[simp] theorem putSymbols_ctCount (out : List Word) (s : State) : (putSymbols out s).ctCount = s.ctCount := rfl
@[simp] theorem putSymbols_ct (out : List Word) (s : State) : (putSymbols out s).ct = s.ct := rfl
@[simp] theorem putSymbols_sym (out : List Word) (s : State) : (putSymbols out s).sym = cellFill out s.sym := rfl
@[simp] theorem putSymbols_byt (out : List Word) (s : State) : (putSymbols out s).byt = s.byt := rfl
@[simp] theorem putSymbols_epoch (out : List Word) (s : State) : (putSymbols out s).epoch = s.epoch := rfl
@[simp] theorem putSymbols_draws (out : List Word) (s : State) : (putSymbols out s).draws = s.draws := rfl
@[simp] theorem putSymbols_script (out : List Word) (s : State) : (putSymbols out s).script = s.script := rfl
@[simp] theorem putSymbols_turns (out : List Word) (s : State) : (putSymbols out s).turns = s.turns := rfl
@[simp] theorem putSymbols_reads (out : List Word) (s : State) : (putSymbols out s).reads = s.reads := rfl

/-! ### `takeTurn` -/

@[simp] theorem takeTurn_cfg (s : State) : (takeTurn s).cfg = s.cfg := rfl
@[simp] theorem takeTurn_rst (s : State) : (takeTurn s).rst = s.rst := rfl
@[simp] theorem takeTurn_irqEn (s : State) : (takeTurn s).irqEn = s.irqEn := rfl
@[simp] theorem takeTurn_busy (s : State) : (takeTurn s).busy = s.busy := rfl
@[simp] theorem takeTurn_done (s : State) : (takeTurn s).done = s.done := rfl
@[simp] theorem takeTurn_cmdDropped (s : State) : (takeTurn s).cmdDropped = s.cmdDropped := rfl
@[simp] theorem takeTurn_err (s : State) : (takeTurn s).err = s.err := rfl
@[simp] theorem takeTurn_phase (s : State) : (takeTurn s).phase = s.phase := rfl
@[simp] theorem takeTurn_arg0 (s : State) : (takeTurn s).arg0 = s.arg0 := rfl
@[simp] theorem takeTurn_arg1 (s : State) : (takeTurn s).arg1 = s.arg1 := rfl
@[simp] theorem takeTurn_res0 (s : State) : (takeTurn s).res0 = s.res0 := rfl
@[simp] theorem takeTurn_res1 (s : State) : (takeTurn s).res1 = s.res1 := rfl
@[simp] theorem takeTurn_res2 (s : State) : (takeTurn s).res2 = s.res2 := rfl
@[simp] theorem takeTurn_outLen (s : State) : (takeTurn s).outLen = s.outLen := rfl
@[simp] theorem takeTurn_leafCount (s : State) : (takeTurn s).leafCount = s.leafCount := rfl
@[simp] theorem takeTurn_total (s : State) : (takeTurn s).total = s.total := rfl
@[simp] theorem takeTurn_nodeCount (s : State) : (takeTurn s).nodeCount = s.nodeCount := rfl
@[simp] theorem takeTurn_nodes (s : State) : (takeTurn s).nodes = s.nodes := rfl
@[simp] theorem takeTurn_ctCount (s : State) : (takeTurn s).ctCount = s.ctCount := rfl
@[simp] theorem takeTurn_ct (s : State) : (takeTurn s).ct = s.ct := rfl
@[simp] theorem takeTurn_sym (s : State) : (takeTurn s).sym = s.sym := rfl
@[simp] theorem takeTurn_byt (s : State) : (takeTurn s).byt = s.byt := rfl
@[simp] theorem takeTurn_epoch (s : State) : (takeTurn s).epoch = s.epoch := rfl
@[simp] theorem takeTurn_draws (s : State) : (takeTurn s).draws = s.draws := rfl
@[simp] theorem takeTurn_script (s : State) : (takeTurn s).script = s.script := rfl
@[simp] theorem takeTurn_turns (s : State) : (takeTurn s).turns = s.turns.tail := rfl
@[simp] theorem takeTurn_reads (s : State) : (takeTurn s).reads = s.reads := rfl

/-! ### `writeCtrl` -/

@[simp] theorem writeCtrl_cfg (v : Word) (s : State) : (writeCtrl v s).cfg = s.cfg := rfl
@[simp] theorem writeCtrl_rst (v : Word) (s : State) : (writeCtrl v s).rst = s.rst := rfl
@[simp] theorem writeCtrl_irqEn (v : Word) (s : State) : (writeCtrl v s).irqEn = v.getLsbD 0 := rfl
@[simp] theorem writeCtrl_busy (v : Word) (s : State) : (writeCtrl v s).busy = s.busy := rfl
@[simp] theorem writeCtrl_done (v : Word) (s : State) : (writeCtrl v s).done = s.done := rfl
@[simp] theorem writeCtrl_cmdDropped (v : Word) (s : State) : (writeCtrl v s).cmdDropped = s.cmdDropped := rfl
@[simp] theorem writeCtrl_err (v : Word) (s : State) : (writeCtrl v s).err = s.err := rfl
@[simp] theorem writeCtrl_phase (v : Word) (s : State) : (writeCtrl v s).phase = s.phase := rfl
@[simp] theorem writeCtrl_arg0 (v : Word) (s : State) : (writeCtrl v s).arg0 = s.arg0 := rfl
@[simp] theorem writeCtrl_arg1 (v : Word) (s : State) : (writeCtrl v s).arg1 = s.arg1 := rfl
@[simp] theorem writeCtrl_res0 (v : Word) (s : State) : (writeCtrl v s).res0 = s.res0 := rfl
@[simp] theorem writeCtrl_res1 (v : Word) (s : State) : (writeCtrl v s).res1 = s.res1 := rfl
@[simp] theorem writeCtrl_res2 (v : Word) (s : State) : (writeCtrl v s).res2 = s.res2 := rfl
@[simp] theorem writeCtrl_outLen (v : Word) (s : State) : (writeCtrl v s).outLen = s.outLen := rfl
@[simp] theorem writeCtrl_leafCount (v : Word) (s : State) : (writeCtrl v s).leafCount = s.leafCount := rfl
@[simp] theorem writeCtrl_total (v : Word) (s : State) : (writeCtrl v s).total = s.total := rfl
@[simp] theorem writeCtrl_nodeCount (v : Word) (s : State) : (writeCtrl v s).nodeCount = s.nodeCount := rfl
@[simp] theorem writeCtrl_nodes (v : Word) (s : State) : (writeCtrl v s).nodes = s.nodes := rfl
@[simp] theorem writeCtrl_ctCount (v : Word) (s : State) : (writeCtrl v s).ctCount = s.ctCount := rfl
@[simp] theorem writeCtrl_ct (v : Word) (s : State) : (writeCtrl v s).ct = s.ct := rfl
@[simp] theorem writeCtrl_sym (v : Word) (s : State) : (writeCtrl v s).sym = s.sym := rfl
@[simp] theorem writeCtrl_byt (v : Word) (s : State) : (writeCtrl v s).byt = s.byt := rfl
@[simp] theorem writeCtrl_epoch (v : Word) (s : State) : (writeCtrl v s).epoch = s.epoch := rfl
@[simp] theorem writeCtrl_draws (v : Word) (s : State) : (writeCtrl v s).draws = s.draws := rfl
@[simp] theorem writeCtrl_script (v : Word) (s : State) : (writeCtrl v s).script = s.script := rfl
@[simp] theorem writeCtrl_turns (v : Word) (s : State) : (writeCtrl v s).turns = s.turns := rfl
@[simp] theorem writeCtrl_reads (v : Word) (s : State) : (writeCtrl v s).reads = s.reads := rfl

/-! ### `writeStatus` -/

@[simp] theorem writeStatus_cfg (v : Word) (s : State) : (writeStatus v s).cfg = s.cfg := rfl
@[simp] theorem writeStatus_rst (v : Word) (s : State) : (writeStatus v s).rst = s.rst := rfl
@[simp] theorem writeStatus_irqEn (v : Word) (s : State) : (writeStatus v s).irqEn = s.irqEn := rfl
@[simp] theorem writeStatus_busy (v : Word) (s : State) : (writeStatus v s).busy = s.busy := rfl
@[simp] theorem writeStatus_done (v : Word) (s : State) : (writeStatus v s).done = (s.done && !v.getLsbD 1) := rfl
@[simp] theorem writeStatus_cmdDropped (v : Word) (s : State) : (writeStatus v s).cmdDropped = (s.cmdDropped && !v.getLsbD 2) := rfl
@[simp] theorem writeStatus_err (v : Word) (s : State) : (writeStatus v s).err = s.err := rfl
@[simp] theorem writeStatus_phase (v : Word) (s : State) : (writeStatus v s).phase = s.phase := rfl
@[simp] theorem writeStatus_arg0 (v : Word) (s : State) : (writeStatus v s).arg0 = s.arg0 := rfl
@[simp] theorem writeStatus_arg1 (v : Word) (s : State) : (writeStatus v s).arg1 = s.arg1 := rfl
@[simp] theorem writeStatus_res0 (v : Word) (s : State) : (writeStatus v s).res0 = s.res0 := rfl
@[simp] theorem writeStatus_res1 (v : Word) (s : State) : (writeStatus v s).res1 = s.res1 := rfl
@[simp] theorem writeStatus_res2 (v : Word) (s : State) : (writeStatus v s).res2 = s.res2 := rfl
@[simp] theorem writeStatus_outLen (v : Word) (s : State) : (writeStatus v s).outLen = s.outLen := rfl
@[simp] theorem writeStatus_leafCount (v : Word) (s : State) : (writeStatus v s).leafCount = s.leafCount := rfl
@[simp] theorem writeStatus_total (v : Word) (s : State) : (writeStatus v s).total = s.total := rfl
@[simp] theorem writeStatus_nodeCount (v : Word) (s : State) : (writeStatus v s).nodeCount = s.nodeCount := rfl
@[simp] theorem writeStatus_nodes (v : Word) (s : State) : (writeStatus v s).nodes = s.nodes := rfl
@[simp] theorem writeStatus_ctCount (v : Word) (s : State) : (writeStatus v s).ctCount = s.ctCount := rfl
@[simp] theorem writeStatus_ct (v : Word) (s : State) : (writeStatus v s).ct = s.ct := rfl
@[simp] theorem writeStatus_sym (v : Word) (s : State) : (writeStatus v s).sym = s.sym := rfl
@[simp] theorem writeStatus_byt (v : Word) (s : State) : (writeStatus v s).byt = s.byt := rfl
@[simp] theorem writeStatus_epoch (v : Word) (s : State) : (writeStatus v s).epoch = s.epoch := rfl
@[simp] theorem writeStatus_draws (v : Word) (s : State) : (writeStatus v s).draws = s.draws := rfl
@[simp] theorem writeStatus_script (v : Word) (s : State) : (writeStatus v s).script = s.script := rfl
@[simp] theorem writeStatus_turns (v : Word) (s : State) : (writeStatus v s).turns = s.turns := rfl
@[simp] theorem writeStatus_reads (v : Word) (s : State) : (writeStatus v s).reads = s.reads := rfl

/-! ### `releaseReset` -/

@[simp] theorem releaseReset_cfg (s : State) : (releaseReset s).cfg = s.cfg := rfl
@[simp] theorem releaseReset_rst (s : State) : (releaseReset s).rst = false := rfl
@[simp] theorem releaseReset_irqEn (s : State) : (releaseReset s).irqEn = s.irqEn := rfl
@[simp] theorem releaseReset_busy (s : State) : (releaseReset s).busy = s.busy := rfl
@[simp] theorem releaseReset_done (s : State) : (releaseReset s).done = s.done := rfl
@[simp] theorem releaseReset_cmdDropped (s : State) : (releaseReset s).cmdDropped = s.cmdDropped := rfl
@[simp] theorem releaseReset_err (s : State) : (releaseReset s).err = s.err := rfl
@[simp] theorem releaseReset_phase (s : State) : (releaseReset s).phase = s.phase := rfl
@[simp] theorem releaseReset_arg0 (s : State) : (releaseReset s).arg0 = s.arg0 := rfl
@[simp] theorem releaseReset_arg1 (s : State) : (releaseReset s).arg1 = s.arg1 := rfl
@[simp] theorem releaseReset_res0 (s : State) : (releaseReset s).res0 = s.res0 := rfl
@[simp] theorem releaseReset_res1 (s : State) : (releaseReset s).res1 = s.res1 := rfl
@[simp] theorem releaseReset_res2 (s : State) : (releaseReset s).res2 = s.res2 := rfl
@[simp] theorem releaseReset_outLen (s : State) : (releaseReset s).outLen = s.outLen := rfl
@[simp] theorem releaseReset_leafCount (s : State) : (releaseReset s).leafCount = s.leafCount := rfl
@[simp] theorem releaseReset_total (s : State) : (releaseReset s).total = s.total := rfl
@[simp] theorem releaseReset_nodeCount (s : State) : (releaseReset s).nodeCount = s.nodeCount := rfl
@[simp] theorem releaseReset_nodes (s : State) : (releaseReset s).nodes = s.nodes := rfl
@[simp] theorem releaseReset_ctCount (s : State) : (releaseReset s).ctCount = s.ctCount := rfl
@[simp] theorem releaseReset_ct (s : State) : (releaseReset s).ct = s.ct := rfl
@[simp] theorem releaseReset_sym (s : State) : (releaseReset s).sym = s.sym := rfl
@[simp] theorem releaseReset_byt (s : State) : (releaseReset s).byt = s.byt := rfl
@[simp] theorem releaseReset_epoch (s : State) : (releaseReset s).epoch = s.epoch := rfl
@[simp] theorem releaseReset_draws (s : State) : (releaseReset s).draws = s.draws := rfl
@[simp] theorem releaseReset_script (s : State) : (releaseReset s).script = s.script := rfl
@[simp] theorem releaseReset_turns (s : State) : (releaseReset s).turns = s.turns := rfl
@[simp] theorem releaseReset_reads (s : State) : (releaseReset s).reads = s.reads := rfl

end Sys2Proof.Laws
end

