-- ==== Sys2Proof/Laws/Ops.lean ====
section
/-! SUPPORT. One lemma per shared operation: what it answers, and what the memories and windows read after it. -/

namespace Sys2Proof.Laws

open Sys2Proof.Machine

/-! ### Completion -/

/-- A completion with OK answers exactly one next state. -/
@[simp] theorem complete_eq_next (r0 r1 r2 : Word) (s t : State) :
    complete r0 r1 r2 s = .next t ↔ t = finish .ok (setRes r0 r1 r2 s) := by
  simp only [complete, Host.Outcome.next.injEq]; exact eq_comm

/-- A failure answers exactly one next state. -/
@[simp] theorem failWith_eq_next (e : Status) (s t : State) :
    failWith e s = .next t ↔ t = finish e (setRes 0 0 0 s) := by
  simp only [failWith, Host.Outcome.next.injEq]; exact eq_comm

/-- A failure of ENCODE or DECODE answers exactly one next state, with OUT_LEN 0. -/
@[simp] theorem failOutput_eq_next (e : Status) (s t : State) :
    failOutput e s = .next t ↔ t = finish e (setRes 0 0 0 { s with outLen := 0 }) := by
  simp only [failOutput, failWith_eq_next]

/-- An issue to an idle block latches the word and the operands. -/
theorem issue_idle {s : State} (w : Word) (h : s.busy = none) :
    issue w s = { s with busy := some { cmd := w, a0 := s.arg0, a1 := s.arg1 }, done := false, err := .ok } := by
  simp [issue, h]

/-- An issue to a busy block only records that it was dropped. -/
theorem issue_busy {s : State} {l : Latch} (w : Word) (h : s.busy = some l) :
    issue w s = { s with cmdDropped := true } := by
  simp [issue, h]

/-- With a command latched the operands are the latched ones. -/
@[simp] theorem operand_latched {s : State} {l : Latch} (h : s.busy = some l) : operand0 s = l.a0 ∧ operand1 s = l.a1 := by
  simp [operand0, operand1, h]

/-! ### Data memories -/

/-- A write into SYM is read back, and no other word changes; past the configured size it does nothing. -/
theorem symAt_symPut (s : State) (i k : Nat) (v : Word) :
    symAt (symPut s i v) k = if k = i ∧ i < s.cfg.symWords then v else symAt s k := by
  by_cases h : i < s.cfg.symWords
  · by_cases hk : k = i <;> simp [symPut, symAt, h, hk]
  · simp [symPut, h]

/-- A write into BYT is read back, and no other byte changes; past the configured size it does nothing. -/
theorem bytAt_bytPut (s : State) (j k : Nat) (v : Byte) :
    bytAt (bytPut s j v) k = if k = j ∧ j < s.cfg.bytBytes then v else bytAt s k := by
  by_cases h : j < s.cfg.bytBytes
  · by_cases hk : k = j <;> simp [bytPut, bytAt, h, hk]
  · simp [bytPut, h]

/-- After a fill of SYM the filled words read the values, and every other word is as before. -/
theorem symAt_symFill (s : State) (vs : List Word) (k : Nat) :
    symAt (symFill s vs) k = (vs[k]?).getD (symAt s k) := by
  by_cases h : k < vs.length <;> simp [symFill, symAt, h]

/-- After a fill of BYT the filled bytes read the values, and every other byte is as before. -/
theorem bytAt_bytFill (s : State) (vs : List Byte) (k : Nat) :
    bytAt (bytFill s vs) k = (vs[k]?).getD (bytAt s k) := by
  by_cases h : k < vs.length <;> simp [bytFill, bytAt, h]

/-- SYM reads depend on its list and the reset count alone. -/
theorem symAt_congr {s t : State} (h1 : t.sym = s.sym) (h2 : t.epoch = s.epoch) (k : Nat) : symAt t k = symAt s k := by
  simp [symAt, h1, h2]

/-- BYT reads depend on its list and the reset count alone. -/
theorem bytAt_congr {s t : State} (h1 : t.byt = s.byt) (h2 : t.epoch = s.epoch) (k : Nat) : bytAt t k = bytAt s k := by
  simp [bytAt, h1, h2]

/-- The input slice has the asked length. -/
@[simp] theorem length_symSlice (s : State) (n : Nat) : (symSlice s n).length = n := by simp [symSlice]

/-- The container slice has the asked length. -/
@[simp] theorem length_bytSlice (s : State) (n : Nat) : (bytSlice s n).length = n := by simp [bytSlice]

/-- Word `i` of the input slice is SYM[i]. -/
theorem getElem?_symSlice (s : State) {i n : Nat} (h : i < n) : (symSlice s n)[i]? = some (symAt s i) := by
  simp [symSlice, h]

/-- Byte `j` of the container slice is BYT[j]. -/
theorem getElem?_bytSlice (s : State) {j n : Nat} (h : j < n) : (bytSlice s n)[j]? = some (bytAt s j) := by
  simp [bytSlice, h]

/-- The input slice depends only on the words in it. -/
theorem symSlice_congr {s t : State} {n : Nat} (h : ∀ i, i < n → symAt t i = symAt s i) : symSlice t n = symSlice s n :=
  List.map_congr_left fun i hi => h i (List.mem_range.1 hi)

/-- The container slice depends only on the bytes in it. -/
theorem bytSlice_congr {s t : State} {n : Nat} (h : ∀ j, j < n → bytAt t j = bytAt s j) : bytSlice t n = bytSlice s n :=
  List.map_congr_left fun j hj => h j (List.mem_range.1 hj)

end Sys2Proof.Laws
end

