-- ==== Sys2Proof/Laws/Exec.lean ====
section
/-! SUPPORT. Everything a command, a turn and a host move can answer, said once: later proofs cite these lemmas and do not unfold the
meanings. -/

namespace Sys2Proof.Laws

open Sys2Proof.Machine

/-! ### The commands -/

/-- NOP answers one next state. -/
theorem exec_nop_next {s t : State} (h : exec .nop s = .next t) : t = finish .ok (setRes 0 0 0 s) :=
  (complete_eq_next ..).1 h

/-- CLEAR answers one next state. -/
theorem exec_clear_next {s t : State} (h : exec .clear s = .next t) :
    t = finish .ok (setRes 0 0 0 (clearContext s)) :=
  (complete_eq_next ..).1 h

/-- LOAD_FREQ fails by its first failing check, or loads a leaf. -/
theorem exec_loadFreq_next {s t : State} (h : exec .loadFreq s = .next t) :
    (∃ e, loadFreqCheck s (operand0 s) (operand1 s) = some e ∧ t = finish e (setRes 0 0 0 s)) ∨
    (loadFreqCheck s (operand0 s) (operand1 s) = none ∧
      t = finish .ok (setRes (Word.ofNat (s.leafCount + 1)) (s.total + operand1 s) 0
        (loadLeaf (operand0 s) (operand1 s) s))) := by
  simp only [exec, execLoadFreq] at h
  split at h
  · exact .inl ⟨_, ‹_›, (failWith_eq_next ..).1 h⟩
  · exact .inr ⟨‹_›, (complete_eq_next ..).1 h⟩

/-- BUILD_TREE fails out of LOADING, or sets the tree. -/
theorem exec_buildTree_next {s t : State} (h : exec .buildTree s = .next t) :
    (s.phase = .empty ∧ t = finish .invalidInput (setRes 0 0 0 s)) ∨
    (s.phase ≠ .empty ∧ s.phase ≠ .loading ∧ t = finish .sequenceError (setRes 0 0 0 s)) ∨
    (s.phase = .loading ∧
      t = finish .ok (setRes (Word.ofNat ((builtNodes s).length - 1)) (Word.ofNat (builtNodes s).length)
        (nodeGet (builtNodes s) ((builtNodes s).length - 1)).weight (setTree (builtNodes s) s))) := by
  simp only [exec, execBuildTree] at h
  split at h
  · exact .inl ⟨‹_›, (failWith_eq_next ..).1 h⟩
  · split at h
    · exact .inr (.inl ⟨‹_›, ‹_›, (failWith_eq_next ..).1 h⟩)
    · rename_i h2
      exact .inr (.inr ⟨not_not.1 h2, (complete_eq_next ..).1 h⟩)

/-- GEN_CODES fails out of TREE_BUILT, or sets the code table. -/
theorem exec_genCodes_next {s t : State} (h : exec .genCodes s = .next t) :
    (s.phase ≠ .treeBuilt ∧ t = finish .sequenceError (setRes 0 0 0 s)) ∨
    (s.phase = .treeBuilt ∧
      t = finish .ok (setRes (Word.ofNat (codeTable (treeNodes s)).length)
        (Word.ofNat (longestCode (codeTable (treeNodes s))))
        (Word.ofNat (tableText (codeTable (treeNodes s))).length) (setCodes (codeTable (treeNodes s)) s))) := by
  simp only [exec, execGenCodes] at h
  split at h
  · exact .inl ⟨‹_›, (failWith_eq_next ..).1 h⟩
  · rename_i h2
    exact .inr ⟨not_not.1 h2, (complete_eq_next ..).1 h⟩

/-- ENCODE fails by its first failing check, or writes the container. -/
theorem exec_encode_next {s t : State} (h : exec .encode s = .next t) :
    (∃ e, encodeCheck s (operand0 s).toNat = some e ∧ t = finish e (setRes 0 0 0 { s with outLen := 0 })) ∨
    (encodeCheck s (operand0 s).toNat = none ∧
      t = finish .ok (setRes (Word.ofNat (tableText (codeEntries s)).length)
        (Word.ofNat (encodeBits s (operand0 s).toNat).length)
        (Word.ofNat (padOf (encodeBits s (operand0 s).toNat).length))
        (putContainer (container (codeEntries s) (encodeBits s (operand0 s).toNat)) s))) := by
  simp only [exec, execEncode] at h
  split at h
  · exact .inl ⟨_, ‹_›, (failOutput_eq_next ..).1 h⟩
  · exact .inr ⟨‹_›, (complete_eq_next ..).1 h⟩

/-- DECODE fails by its first failing check, or writes the decoded symbols; the context is cleared either way. -/
theorem exec_decode_next {s t : State} (h : exec .decode s = .next t) :
    (∃ e, decodeResult s (operand0 s).toNat = .error e ∧
      t = finish e (setRes 0 0 0 { clearContext s with outLen := 0 })) ∨
    (∃ d, decodeResult s (operand0 s).toNat = .ok d ∧
      t = finish .ok (setRes (Word.ofNat d.symbols.length) (Word.ofNat d.tableLen) (Word.ofNat d.pad)
        (putSymbols d.symbols (clearContext s)))) := by
  simp only [exec, execDecode] at h
  split at h
  · exact .inl ⟨_, ‹_›, (failOutput_eq_next ..).1 h⟩
  · exact .inr ⟨_, ‹_›, (complete_eq_next ..).1 h⟩

/-- Every command answers a next state, in which it has completed. -/
theorem exec_answers (i : Instr) (s : State) : ∃ t, exec i s = .next t ∧ t.busy = none ∧ t.done = true := by
  cases i <;> simp only [exec]
  · exact ⟨_, rfl, rfl, rfl⟩
  · exact ⟨_, rfl, rfl, rfl⟩
  · unfold execLoadFreq; split <;> exact ⟨_, rfl, rfl, rfl⟩
  · unfold execBuildTree; split
    · exact ⟨_, rfl, rfl, rfl⟩
    · split <;> exact ⟨_, rfl, rfl, rfl⟩
  · unfold execGenCodes; split <;> exact ⟨_, rfl, rfl, rfl⟩
  · unfold execEncode; split <;> exact ⟨_, rfl, rfl, rfl⟩
  · unfold execDecode; split <;> exact ⟨_, rfl, rfl, rfl⟩

/-- A command that answers `t` has completed in `t`. -/
theorem exec_completed {i : Instr} {s t : State} (h : exec i s = .next t) : t.busy = none ∧ t.done = true := by
  obtain ⟨u, hu, hb, hd⟩ := exec_answers i s
  rw [hu] at h
  obtain rfl : u = t := by simpa using h
  exact ⟨hb, hd⟩

/-- An accepted payload holds at most SYM_WORDS symbols (R281), and the walk made them. -/
theorem decodePayload_ok {p : Params} {root : Trie} {pad : Nat} {payload : List Byte} {out : List Word}
    (h : decodePayload p root pad payload = .ok out) :
    pad ≤ 8 * payload.length ∧
    walkBits root none ((unpackBits payload).take (8 * payload.length - pad)) = some out ∧ out.length ≤ p.symWords := by
  unfold decodePayload at h
  split at h
  · cases h
  · rename_i h1
    split at h
    · cases h
    · rename_i out' h2
      split at h
      · cases h
      · rename_i h3
        obtain rfl : out' = out := by simpa using h
        exact ⟨by omega, h2, by omega⟩

/-- What an accepted table and payload are (R271). -/
theorem decodeBody_ok {p : Params} {pad t : Nat} {rest : List Byte} {d : Decoded} (h : decodeBody p pad t rest = .ok d) :
    ∃ es root, parseTable (rest.take t) = some es ∧ buildTrie p es = .ok root ∧
      decodePayload p root pad (rest.drop t) = .ok d.symbols ∧ d.pad = pad ∧ d.tableLen = t := by
  unfold decodeBody decodeTable at h
  cases h1 : parseTable (rest.take t) with
  | none => simp [h1] at h
  | some es =>
    simp only [h1] at h
    cases h2 : buildTrie p es with
    | error e => simp [h2] at h
    | ok root =>
      simp only [h2] at h
      cases h3 : decodePayload p root pad (rest.drop t) with
      | error e => simp [h3] at h
      | ok out =>
        simp only [h3, Except.ok.injEq] at h
        subst h
        exact ⟨es, root, rfl, h2, h3, rfl, rfl⟩

/-- What an accepted container is (R271). -/
theorem decodeContainer_ok {p : Params} {c : List Byte} {d : Decoded} (h : decodeContainer p c = .ok d) :
    ∃ pad b1 b2 b3 b4 rest, c = pad :: b1 :: b2 :: b3 :: b4 :: rest ∧ be32Value b1 b2 b3 b4 ≤ rest.length ∧
      decodeBody p pad.toNat (be32Value b1 b2 b3 b4) rest = .ok d := by
  unfold decodeContainer at h
  split at h
  · split at h
    · cases h
    · rename_i h1
      exact ⟨_, _, _, _, _, _, rfl, Nat.not_lt.1 h1, h⟩
  · cases h

/-- DECODE never decodes more symbols than SYM holds. -/
theorem decodeResult_length {s : State} {n : Nat} {d : Decoded} (h : decodeResult s n = .ok d) :
    d.symbols.length ≤ s.cfg.symWords := by
  unfold decodeResult at h
  split at h
  · cases h
  · obtain ⟨_, _, _, _, _, _, _, _, h1⟩ := decodeContainer_ok h
    obtain ⟨_, _, _, _, h2, _, _⟩ := decodeBody_ok h1
    exact (decodePayload_ok h2).2.2

/-- The bytes of a container: five of header, the table text and the payload (R130). -/
@[simp] theorem length_container (ct : List CodeEntry) (c : Bits) :
    (container ct c).length = 5 + (tableText ct).length + payloadLen c.length := by
  simp [container, be32, packBits]; omega

/-! ### Turns and host moves -/

/-- The core's turn completes the latched command or does nothing. -/
theorem coreTurn_next {s t : State} (h : coreTurn s = .next t) :
    t = s ∨
    (∃ l i, s.rst = false ∧ s.busy = some l ∧ decode l.cmd = .ok i ∧ exec i s = .next t) ∨
    (∃ l e, s.rst = false ∧ s.busy = some l ∧ decode l.cmd = .error e ∧
      t = finish .illegalCommand (setRes 0 0 0 s)) := by
  unfold coreTurn at h
  split at h
  · exact .inl (by simpa using h.symm)
  · rename_i hr
    split at h
    · exact .inl (by simpa using h.symm)
    · unfold completeWord at h
      split at h
      · exact .inr (.inl ⟨_, _, by simpa using hr, ‹_›, ‹_›, h⟩)
      · exact .inr (.inr ⟨_, _, by simpa using hr, ‹_›, ‹_›, (failWith_eq_next ..).1 h⟩)

/-- A host move reads, writes one location, polls, or drives reset. -/
theorem hostMove_next {m : HostMove} {s t : State} (h : hostMove m s = .next t) :
    (m = .assertRst ∧ t = assertReset s) ∨ (m = .releaseRst ∧ t = releaseReset s) ∨
    (s.rst = false ∧
      ((∃ off, m = .read 32 off ∧ off.toNat % 4 = 0 ∧ t = hostRead (locate off.toNat) s) ∨
       (∃ off v, m = .write 32 off v ∧ off.toNat % 4 = 0 ∧
        (s.busy.isSome && inDataWindow (locate off.toNat)) = false ∧ t = writeLoc (locate off.toNat) v s) ∨
       (m = .wait ∧ t = pollBusy s) ∨ (m = .check ∧ t = pollErr s))) := by
  cases m <;> simp only [hostMove] at h
  case read w off =>
    split at h
    · cases h
    · rename_i hr
      unfold busRead at h
      split at h
      · rename_i hb
        simp only [busAccepts, Bool.and_eq_true, beq_iff_eq] at hb
        refine .inr (.inr ⟨by simpa using hr, .inl ⟨off, ?_, hb.2, ?_⟩⟩)
        · rw [hb.1]
        · simpa using h.symm
      · cases h
  case write w off v =>
    split at h
    · cases h
    · rename_i hr
      unfold busWrite at h
      split at h
      · rename_i hb
        simp only [busAccepts, Bool.and_eq_true, beq_iff_eq] at hb
        split at h
        · cases h
        · rename_i hd
          refine .inr (.inr ⟨by simpa using hr, .inr (.inl ⟨off, v, ?_, hb.2, by simpa using hd, ?_⟩)⟩)
          · rw [hb.1]
          · simpa using h.symm
      · cases h
  case wait =>
    split at h
    · cases h
    · rename_i hr
      exact .inr (.inr ⟨by simpa using hr, .inr (.inr (.inl ⟨rfl, by simpa using h.symm⟩))⟩)
  case check =>
    split at h
    · cases h
    · rename_i hr
      exact .inr (.inr ⟨by simpa using hr, .inr (.inr (.inr ⟨rfl, by simpa using h.symm⟩))⟩)
  case assertRst => exact .inl ⟨rfl, by simpa using h.symm⟩
  case releaseRst => exact .inr (.inl ⟨rfl, by simpa using h.symm⟩)

/-- The host's turn makes the script's next move, or does nothing when the script is over. -/
theorem hostTurn_next {s t : State} (h : hostTurn s = .next t) :
    (s.script = [] ∧ t = s) ∨ (∃ m ms, s.script = m :: ms ∧ hostMove m { s with script := ms } = .next t) := by
  unfold hostTurn at h
  split at h
  · exact .inl ⟨‹_›, by simpa using h.symm⟩
  · exact .inr ⟨_, _, ‹_›, h⟩

/-- A step is one turn of the agent the schedule names. -/
theorem step_next {s t : State} (h : step s = .next t) :
    (nextAgent s = .host ∧ hostTurn (takeTurn s) = .next t) ∨ (nextAgent s = .core ∧ coreTurn (takeTurn s) = .next t) := by
  unfold step agentTurn at h
  split at h
  · exact .inl ⟨‹_›, h⟩
  · exact .inr ⟨‹_›, h⟩

/-- A read, and the two polls, change the host's side of the state and nothing else. -/
theorem hostRead_block (l : Loc) (s : State) :
    hostRead l s = { s with reads := (hostRead l s).reads, draws := (hostRead l s).draws } := rfl

/-- WAIT changes the host's side of the state and nothing else. -/
theorem pollBusy_block (s : State) :
    pollBusy s = { s with reads := (pollBusy s).reads, script := (pollBusy s).script } := by
  unfold pollBusy; split <;> simp [hostRead, isDrawn, alwaysTrue]

/-- CHECK changes the host's side of the state and nothing else. -/
theorem pollErr_block (s : State) :
    pollErr s = { s with reads := (pollErr s).reads, script := (pollErr s).script } := by
  unfold pollErr; split <;> simp [hostRead, isDrawn, alwaysTrue]

end Sys2Proof.Laws
end

