-- ==== Sys2Proof/Laws/PerInstr.lean ====
section
/-! SUPPORT. The per-instruction family RoundTrip: every command is well-formed, and its encoding decodes to it (30_encoding.md R110, R114). -/

namespace Sys2Proof.Laws.RoundTrip

/-- The command's word decodes to the command. -/
def Statement (i : Instr) : Prop := i.wf = true ∧ decode (encode i) = .ok i

theorem nop : Statement .nop := ⟨rfl, rfl⟩
theorem clear : Statement .clear := ⟨rfl, rfl⟩
theorem loadFreq : Statement .loadFreq := ⟨rfl, rfl⟩
theorem buildTree : Statement .buildTree := ⟨rfl, rfl⟩
theorem genCodes : Statement .genCodes := ⟨rfl, rfl⟩
theorem encode : Statement .encode := ⟨rfl, rfl⟩
theorem decode : Statement .decode := ⟨rfl, rfl⟩

end Sys2Proof.Laws.RoundTrip
end

