-- ==== Sys2Proof/Laws/Text.lean ====
section
/-! SUPPORT. Decimal digits, written and read back: what the statements about the table text cite. -/

namespace Sys2Proof.Laws

open Sys2Proof.Machine

/-- R15: a digit below ten is a DIGIT of the grammar, with its value above 0x30. -/
theorem digitByte_digit {d : Nat} (h : d < 10) : isDigit (digitByte d) = true ∧ (digitByte d).toNat = 0x30 + d := by
  interval_cases d <;> decide

theorem foldl_decimal (ds : List Byte) (v : Nat) :
    ds.foldl (fun v d => 10 * v + (d.toNat - 0x30)) v = v * 10 ^ ds.length + decimalValue ds := by
  unfold decimalValue
  induction ds generalizing v with
  | nil => simp
  | cons d ds ih =>
    simp only [List.foldl_cons, List.length_cons]
    rw [ih, ih (10 * 0 + _)]
    ring

/-- R126: the value of a digit run by its first digit. -/
theorem decimalValue_cons (d : Byte) (ds : List Byte) :
    decimalValue (d :: ds) = (d.toNat - 0x30) * 10 ^ ds.length + decimalValue ds := by
  show List.foldl _ _ (d :: ds) = _
  rw [List.foldl_cons, foldl_decimal]
  simp

/-- A number below 10^k takes at most k digits. -/
theorem decDigits_length (fuel n : Nat) (acc : List Byte) (k : Nat) (hn : n < 10 ^ k) (hk : 0 < k) :
    (decDigits fuel n acc).length ≤ k + acc.length := by
  induction fuel generalizing n acc k with
  | zero => simp [decDigits]
  | succ fuel ih =>
    unfold decDigits
    by_cases h : n < 10
    · rw [if_pos h]
      simp
      omega
    · rw [if_neg h]
      obtain ⟨j, rfl⟩ : ∃ j, k = j + 1 := ⟨k - 1, by omega⟩
      have hj : 0 < j := by
        rcases Nat.eq_zero_or_pos j with rfl | hj
        · simp at hn
          omega
        · exact hj
      have := ih (n / 10) (digitByte (n % 10) :: acc) j (by rw [pow_succ] at hn; omega) hj
      simp at this
      omega

end Sys2Proof.Laws
end

