-- ==== Sys2Proof/Laws/TreeBuilder.lean ====
section
/-! SUPPORT. The key order, and that Merge only appends: what the statements about BUILD_TREE cite. -/

namespace Sys2Proof.Laws

open Sys2Proof.Machine

/-- R185: keys compare by weight, then by index. -/
theorem keyLt_iff (ns : List Node) (a b : Nat) :
    keyLt ns a b = true ↔
      (nodeGet ns a).weight.toNat < (nodeGet ns b).weight.toNat ∨
      ((nodeGet ns a).weight.toNat = (nodeGet ns b).weight.toNat ∧ a < b) := by
  simp [keyLt]

/-- A record of a RAM is the same in every RAM that extends it. -/
theorem nodeGet_prefix {ns ns' : List Node} (h : ns <+: ns') {n : Nat} (hn : n < ns.length) :
    nodeGet ns' n = nodeGet ns n := by
  obtain ⟨rest, rfl⟩ := h
  simp [nodeGet, List.getElem?_append_left hn, hn]

/-- A pass of Merge appends one record. -/
theorem mergeStep_appends {ns ns' : List Node} {q q' : List Nat} (h : mergeStep ns q = some (ns', q')) :
    ∃ r, ns' = ns ++ [r] := by
  unfold mergeStep at h
  split at h
  · cases h
  · split at h
    · cases h
    · simp only [Option.some.injEq, Prod.mk.injEq] at h
      exact ⟨_, h.1.symm⟩

/-- Merge changes no record it started from (R55: nodes are never mutated after creation). -/
theorem mergeLoop_prefix (fuel : Nat) (ns : List Node) (q : List Nat) : ns <+: mergeLoop fuel ns q := by
  induction fuel generalizing ns q with
  | zero => exact List.prefix_refl _
  | succ fuel ih =>
    unfold mergeLoop
    split
    · exact List.prefix_refl _
    · obtain ⟨r, rfl⟩ := mergeStep_appends ‹_›
      exact (List.prefix_append _ _).trans (ih _ _)

/-- BUILD_TREE keeps the leaves. -/
theorem builtNodes_leaf (s : State) {n : Nat} (h : n < s.leafCount) :
    nodeGet (builtNodes s) n = nodeGet s.nodes n := by
  unfold builtNodes
  split
  · obtain rfl : n = 0 := by omega
    simp [singleTree, nodeGet]
  · rw [mergeTree, nodeGet_prefix (mergeLoop_prefix _ _ _) (by simpa using h), nodeGet_nodeSlice _ h]

end Sys2Proof.Laws
end

