-- ==== Sys2Proof/Tests/Slice0.lean ====
section
/-! SUPPORT. The model's own tests: well-formedness smoke tests, command words written out from 30_encoding.md R110 and R114, single
steps on the vectors of 95_test_vectors.md, and a witness for the hypotheses of every obligation that has some. -/

namespace Sys2Proof.Tests

open Sys2Proof Sys2Proof.Machine Sys2Proof.Safety

/-! ### Small states -/

/-- `s` with a command latched (R160). -/
def latched (w a0 a1 : Word) (s : State) : State :=
  { s with busy := some { cmd := w, a0 := a0, a1 := a1 }, done := false, err := .ok }

/-- LOADING with the given leaves, their count and total. -/
def loaded (leaves : List Node) (total : Word) : State :=
  { State.reset with
    phase := .loading, leafCount := leaves.length, nodeCount := leaves.length, total := total, nodes := leaves }

/-- Vector 2.3.3: (97, 1), (98, 1) loaded. -/
def loadedAB : State := loaded [leafNode 97 1, leafNode 98 1] 2

/-- Vector 2.3.2: (97, 4) loaded. -/
def loadedA : State := loaded [leafNode 97 4] 4

/-- Vector 2.3.3: the tree of "ab". -/
def builtAB : State :=
  { loadedAB with
    phase := .treeBuilt, nodeCount := 3
    nodes := [leafNode 97 1, leafNode 98 1,
      { kind := .internal, weight := 2, sym := 0, left := 0, right := 1 }] }

/-- Vector 2.4.4: the codes of "ab", with the input "ab" in SYM. -/
def readyAB : State :=
  { builtAB with
    phase := .codesReady, ctCount := 2
    ct := [{ sym := 97, bits := [false] }, { sym := 98, bits := [true] }]
    sym := [(0, 97), (1, 98)] }

/-- A block out of reset whose BYT holds the given container. -/
def holding (c : List Byte) : State := { State.reset with byt := cellRun 0 c }

/-- Vector 2.5.1: the container of "aaaa". -/
def containerAaaa : List Byte := [0x04, 0x00, 0x00, 0x00, 0x04, 0x39, 0x37, 0x3A, 0x30, 0x00]

/-- Vector 2.5.2: the container of "ab". -/
def containerAB : List Byte :=
  [0x06, 0x00, 0x00, 0x00, 0x09, 0x39, 0x37, 0x3A, 0x30, 0x0A, 0x39, 0x38, 0x3A, 0x31, 0x40]

/-- Vector 2.6.2 p: the table "97:0\n98:01", whose first code is a prefix of the second. -/
def containerPrefix : List Byte :=
  [0x06, 0x00, 0x00, 0x00, 0x0A, 0x39, 0x37, 0x3A, 0x30, 0x0A, 0x39, 0x38, 0x3A, 0x30, 0x31, 0x40]

/-- What a test looks at in a next state; `d` where the machine stopped. -/
def look {α : Type} (f : State → α) (d : α) : Host.Outcome State Fault Refusal → α
  | .next t => f t
  | .fault _ => d
  | .refused _ => d

/-- The RES registers (R43). -/
def res (t : State) : Word × Word × Word := (t.res0, t.res1, t.res2)

/-! ### Well-formedness: each check refuses an ill-formed term -/

/-- R82, R83: 16 bits wide. -/
theorem test_wf_read_width : (HostMove.read 16 0x00C).wf = false := by decide
/-- R82, R83: offset not a multiple of 4. -/
theorem test_wf_read_align : (HostMove.read 32 0x00E).wf = false := by decide
theorem test_wf_write_width : (HostMove.write 8 0x010 0).wf = false := by decide
theorem test_wf_write_align : (HostMove.write 32 0x011 0).wf = false := by decide
theorem test_wf_good : (HostMove.read 32 0x00C).wf = true ∧ (HostMove.write 32 0x010 0).wf = true := by decide
/-- R9: each bound of each parameter. -/
theorem test_wf_params :
    ({ Params.default with lMax := 1 } : Params).legal = false ∧
    ({ Params.default with lMax := 257 } : Params).legal = false ∧
    ({ Params.default with symMax := 0 } : Params).legal = false ∧
    ({ Params.default with symMax := 0x110000 } : Params).legal = false ∧
    ({ Params.default with symWords := 0 } : Params).legal = false ∧
    ({ Params.default with symWords := 2 ^ 20 + 1 } : Params).legal = false ∧
    ({ Params.default with bytBytes := 4 } : Params).legal = false ∧
    ({ Params.default with bytBytes := 2 ^ 21 + 1 } : Params).legal = false ∧ Params.default.legal = true := by decide
theorem test_wf_commands : ∀ i : Instr, i.wf = true := by intro i; cases i <;> rfl
/-- Log 4: an unsorted list and one with an index past the end are not in canonical form. -/
theorem test_wf_memory :
    Memory.wf 4 [(1, (7 : Byte)), (0, 8)] = false ∧ Memory.wf 4 [(1, (7 : Byte)), (1, 8)] = false ∧
    Memory.wf 4 [(4, (7 : Byte))] = false ∧ Memory.wf 4 [(0, (7 : Byte)), (3, 8)] = true := by decide

/-! ### Command words, bit by bit: RSV (24 bits), then OP (8 bits) (R110, R114) -/

theorem test_word_nop : decode 0b000000000000000000000000_00000000#32 = .ok .nop := by decide
theorem test_word_clear : decode 0b000000000000000000000000_00000001#32 = .ok .clear := by decide
theorem test_word_loadFreq : decode 0b000000000000000000000000_00000010#32 = .ok .loadFreq := by decide
theorem test_word_buildTree : decode 0b000000000000000000000000_00000011#32 = .ok .buildTree := by decide
theorem test_word_genCodes : decode 0b000000000000000000000000_00000100#32 = .ok .genCodes := by decide
theorem test_word_encode : decode 0b000000000000000000000000_00000101#32 = .ok .encode := by decide
theorem test_word_decode : decode 0b000000000000000000000000_00000110#32 = .ok .decode := by decide
/-- R112: OP = NOP with bit 8 or bit 31 set names no command. -/
theorem test_word_reserved :
    decode 0b000000000000000000000001_00000000#32 = .error .reservedBits ∧
    decode 0b100000000000000000000000_00000000#32 = .error .reservedBits := by decide
/-- R114: the first and the last OP value without a command. -/
theorem test_word_unknown :
    decode 0b000000000000000000000000_00000111#32 = .error .unknownOpcode ∧
    decode 0b000000000000000000000000_11111111#32 = .error .unknownOpcode := by decide
/-- The table numbering: every row of spec/opcode_table.json, and a word too wide to be a command. -/
theorem test_table_words :
    decodeTableWord 32 0 = some .nop ∧ decodeTableWord 32 1 = some .clear ∧ decodeTableWord 32 2 = some .loadFreq ∧
    decodeTableWord 32 3 = some .buildTree ∧ decodeTableWord 32 4 = some .genCodes ∧
    decodeTableWord 32 5 = some .encode ∧ decodeTableWord 32 6 = some .decode ∧ decodeTableWord 32 7 = none ∧
    decodeTableWord 64 (2 ^ 32) = none := by decide

/-! ### Vectors of 95_test_vectors.md: one command each -/

/-- 2.1.1: STATUS = 0x002. -/
theorem test_nop : look (fun t => (statusWord t, res t)) (0, 0, 0, 0) (exec .nop (latched 0 0 0 State.reset)) =
    (0x002, 0, 0, 0) := by decide
/-- 2.1.8: OP = 0 with RSV set is no NOP: STATUS = 0x062. -/
theorem test_illegal_word : look statusWord 0 (coreTurn (latched 0x80000000 0 0 State.reset)) = 0x062 := by decide
/-- 2.1.3: CLEAR after LOAD_FREQ (97, 4). -/
theorem test_clear_discards : look (fun t => (t.leafCount, t.total, t.nodeCount, statusWord t)) (9, 9, 9, 9)
    (exec .clear (latched 1 0 0 loadedA)) = (0, 0, 0, 0x002) := by decide
/-- 2.1.4: CLEAR keeps OUT_LEN and BYT. -/
theorem test_clear_keeps : look (fun t => (t.outLen, bytAt t 0)) (0, 0)
    (exec .clear (latched 1 0 0 { (holding [0x05]) with outLen := 42 })) = (42, 5) := by decide
/-- 2.2.9: LOAD_FREQ (1, 1) after (0, 0xFFFFFFFF): check (f), TOTAL stays. -/
theorem test_loadFreq_total : look (fun t => (t.err, t.total, res t)) (.ok, 0, 0, 0, 0)
    (exec .loadFreq (latched 2 1 1 (loaded [leafNode 0 0xFFFFFFFF] 0xFFFFFFFF))) =
    (.capacityExceeded, 0xFFFFFFFF, 0, 0, 0) := by decide
/-- 2.2.6: LOAD_FREQ (0x10FFFF, 1) after (97, 4). -/
theorem test_loadFreq_second : look (fun t => (res t, nodeGet t.nodes 1)) (0, emptyNode)
    (exec .loadFreq (latched 2 0x10FFFF 1 loadedA)) =
    ((2, 5, 0), { kind := .leaf, weight := 1, sym := 0x10FFFF, left := 0, right := 0 }) := by decide
/-- 2.3.6: leaf 2 and node 3 tie at weight 2; the lower index pops first. -/
theorem test_buildTree_tie : look (fun t => (res t, nodeGet t.nodes 3, nodeGet t.nodes 4)) (0, emptyNode, emptyNode)
    (exec .buildTree (latched 3 0 0 (loaded [leafNode 97 1, leafNode 98 1, leafNode 99 2] 4))) =
    ((4, 5, 4), { kind := .internal, weight := 2, sym := 0, left := 0, right := 1 },
      { kind := .internal, weight := 4, sym := 0, left := 2, right := 3 }) := by decide
/-- 2.2.10: the largest TOTAL, without wrap; the lighter leaf 1 goes left. -/
theorem test_buildTree_no_wrap : look (fun t => (res t, nodeGet t.nodes 2)) (0, emptyNode)
    (exec .buildTree (latched 3 0 0 (loaded [leafNode 5 0xFFFFFFFE, leafNode 6 1] 0xFFFFFFFF))) =
    ((2, 3, 0xFFFFFFFF), { kind := .internal, weight := 0xFFFFFFFF, sym := 0, left := 1, right := 0 }) := by decide
/-- 2.4.6: the codes of "abc", in order. -/
theorem test_genCodes_abc : look (fun t => (res t, t.ct)) (0, [])
    (exec .genCodes (latched 4 0 0
      { (loaded [leafNode 97 1, leafNode 98 1, leafNode 99 1, internalNode 2 0 1, internalNode 3 2 3] 3) with
        phase := .treeBuilt, leafCount := 3 })) =
    ((3, 2, 16), [⟨99, [false]⟩, ⟨97, [true, false]⟩, ⟨98, [true, true]⟩]) := by decide
/-- 2.4.3: the dummy makes no entry. -/
theorem test_genCodes_single : look (fun t => (res t, t.ct)) (0, [])
    (exec .genCodes (latched 4 0 0
      { (loaded [leafNode 97 4, dummyNode, internalNode 4 0 1] 4) with phase := .treeBuilt, leafCount := 1 })) =
    ((1, 1, 4), [⟨97, [false]⟩]) := by decide
/-- 2.5.2: "ab" encoded. -/
theorem test_encode_ab : look (fun t => (res t, t.outLen, bytSlice t 15)) (0, 0, [])
    (exec .encode (latched 5 2 0 readyAB)) = ((9, 2, 6), 15, containerAB) := by decide
/-- 2.5.16: a second 97 is one too many (d); BYT is unchanged. -/
theorem test_encode_count : look (fun t => (t.err, t.outLen, t.byt)) (.ok, 1, [(0, 0)])
    (exec .encode (latched 5 2 0 { readyAB with sym := [(0, 97), (1, 97)] })) = (.invalidInput, 0, []) := by decide
/-- 2.5.1 decoded (2.6.1 a). -/
theorem test_decode_aaaa : look (fun t => (res t, t.outLen, symSlice t 4, t.phase)) (0, 0, [], .loading)
    (exec .decode (latched 6 10 0 (holding containerAaaa))) = ((4, 4, 4), 4, [97, 97, 97, 97], .empty) := by decide
/-- 2.6.2 p: an earlier code is a prefix; the context of a failing DECODE is cleared too (2.6.6). -/
theorem test_decode_prefix : look (fun t => (t.err, t.leafCount, t.sym)) (.ok, 9, [(0, 0)])
    (exec .decode (latched 6 16 0 { loadedA with byt := cellRun 0 containerPrefix })) =
    (.malformedContainer, 0, []) := by decide
/-- 2.7.9, one order: a CMD write while busy is dropped. -/
theorem test_cmd_dropped : look (fun t => (t.cmdDropped, t.busy)) (false, none)
    (hostMove (wr offCmd 0) (latched 3 0 0 State.reset)) = (true, some ⟨3, 0, 0⟩) := by decide
/-- 2.7.11: BYT keeps the low byte. -/
theorem test_byt_write : look (fun t => bytAt t 0) 0 (hostMove (wr (offByt 0) 0x1FF) State.reset) = 0xFF := by decide
/-- The CT window after 2.4.9: CT[1].BITS_0 = 0x80000000 for the code "100" (R58). -/
theorem test_code_word : codeWord [true, false, false] 0 = 0x80000000 ∧ codeWord [true, true, false] 0 = 0xC0000000 := by
  decide
/-- Section 3: the script of P1 ends in these moves (R118). -/
theorem test_script : scrEnc 4 = [wr 0x014 4, wr 0x010 5, .wait] ∧ scrPuts 1 [97] = [wr 0x400004 97] := by decide

/-! ### A command word placed after reset is the one the next step runs -/

theorem test_fetch_nop : step (State.reset.withFetchWord 32 0) = exec .nop (latched 0 0 0 State.reset) := by rfl
theorem test_fetch_clear : step (State.reset.withFetchWord 32 1) = exec .clear (latched 1 0 0 State.reset) := by rfl
theorem test_fetch_loadFreq : step (State.reset.withFetchWord 32 2) = exec .loadFreq (latched 2 0 0 State.reset) := by rfl
theorem test_fetch_buildTree : step (State.reset.withFetchWord 32 3) = exec .buildTree (latched 3 0 0 State.reset) := by rfl
theorem test_fetch_genCodes : step (State.reset.withFetchWord 32 4) = exec .genCodes (latched 4 0 0 State.reset) := by rfl
theorem test_fetch_encode : step (State.reset.withFetchWord 32 5) = exec .encode (latched 5 0 0 State.reset) := by rfl
theorem test_fetch_decode : step (State.reset.withFetchWord 32 6) = exec .decode (latched 6 0 0 State.reset) := by rfl

theorem contextOk_loading {s : State} (hp : s.phase = .loading)
    (h : s.nodes.length = s.leafCount ∧ s.nodeCount = s.leafCount ∧ LeavesOk s.cfg s.nodes s.total.toNat ∧
      s.ctCount = 0 ∧ s.ct = []) : ContextOk s := by
  unfold ContextOk; rw [hp]; exact h

theorem contextOk_built {s : State} (hp : s.phase = .treeBuilt) (h : BuiltOk s ∧ s.ctCount = 0 ∧ s.ct = []) :
    ContextOk s := by
  unfold ContextOk; rw [hp]; exact h

theorem contextOk_ready {s : State} (hp : s.phase = .codesReady)
    (h : BuiltOk s ∧ s.ct = codeTable s.nodes ∧ s.ctCount = s.ct.length ∧ s.ctCount = s.leafCount) : ContextOk s := by
  unfold ContextOk; rw [hp]; exact h

theorem loadedA_ok : ContextOk loadedA := contextOk_loading rfl (by decide)

theorem loadedAB_ok : ContextOk loadedAB := contextOk_loading rfl (by decide)

theorem builtAB_ok : ContextOk builtAB := contextOk_built rfl (by decide)

theorem readyAB_ok : ContextOk readyAB := contextOk_ready rfl (by decide)

/-! ### Witnesses: the hypotheses of each obligation are met together, each clause at a boundary -/

theorem test_witness_StepRunsTheNextTurn :
    (∃ s l, nextAgent s = .core ∧ s.rst = false ∧ s.busy = some l ∧ decode l.cmd = .ok .decode) ∧
    (∃ s l, nextAgent s = .core ∧ s.rst = false ∧ s.busy = some l ∧ decode l.cmd = .error .unknownOpcode) ∧
    (∃ s m ms, nextAgent s = .host ∧ s.script = m :: ms) ∧ runOver State.reset = true :=
  ⟨⟨latched 6 0 0 State.reset, ⟨6, 0, 0⟩, by decide, rfl, rfl, by decide⟩,
   ⟨latched 7 0 0 State.reset, ⟨7, 0, 0⟩, by decide, rfl, rfl, by decide⟩,
   ⟨{ State.reset with script := [.wait] }, .wait, [], by decide, rfl⟩, by decide⟩

/-- The least word that names no command, and one whose OP is NOP but whose RSV is not 0. -/
theorem test_witness_IllegalWordCompletes :
    ((latched 0x07 0 0 State.reset).rst = false ∧ (latched 0x07 0 0 State.reset).busy = some ⟨0x07, 0, 0⟩ ∧
      0x07 ≤ (0x07 : Word).toNat) ∧
    ((latched 0x80000000 0 0 State.reset).busy = some ⟨0x80000000, 0, 0⟩ ∧ 0x07 ≤ (0x80000000 : Word).toNat) := by decide

theorem test_witness_CmdWriteIssuesOrDrops :
    (State.reset.rst = false ∧ State.reset.busy = none) ∧
    ((latched 0 0 0 State.reset).rst = false ∧ (latched 0 0 0 State.reset).busy.isSome = true) := by decide

theorem test_witness_EveryIssuedCommandCompletes :
    (latched 0x80000000 0 0 State.reset).rst = false ∧
    (latched 0x80000000 0 0 State.reset).busy = some ⟨0x80000000, 0, 0⟩ := by decide

/-- A failing ENCODE, a failing DECODE and a failing command of another kind. -/
theorem test_witness_FailedCommandCommitsNothing :
    (∃ t, exec .encode (latched 5 0 0 State.reset) = .next t ∧ t.err ≠ .ok) ∧
    (∃ t, exec .decode (latched 6 0 0 State.reset) = .next t ∧ t.err ≠ .ok) ∧
    (∃ t, exec .buildTree (latched 3 0 0 State.reset) = .next t ∧ t.err ≠ .ok) :=
  ⟨⟨_, rfl, by decide⟩, ⟨_, rfl, by decide⟩, ⟨_, rfl, by decide⟩⟩

theorem test_witness_EncodeReadsOnlyItsInput :
    (latched 5 2 0 readyAB).busy = some ⟨5, 2, 0⟩ ∧
    (∀ i, i < 2 → symAt { latched 5 2 0 readyAB with sym := [(0, 97), (1, 98), (2, 5)] } i =
      symAt (latched 5 2 0 readyAB) i) ∧
    (∃ t, exec .encode (latched 5 2 0 readyAB) = .next t) := ⟨rfl, by decide, _, rfl⟩

theorem test_witness_DecodeReadsOnlyItsContainer :
    (latched 6 10 0 (holding containerAaaa)).busy = some ⟨6, 10, 0⟩ ∧
    (∀ j, j < 10 → bytAt { latched 6 10 0 (holding containerAaaa) with byt := cellRun 0 (containerAaaa ++ [7]) } j =
      bytAt (latched 6 10 0 (holding containerAaaa)) j) ∧
    (∃ t, exec .decode (latched 6 10 0 (holding containerAaaa)) = .next t) := ⟨rfl, by decide, _, rfl⟩

/-- From EMPTY with symbol 0 and the largest TOTAL (2.2.8); from LOADING with the largest symbol (2.2.6). -/
theorem test_witness_LoadFreqAppendsLeaf :
    (State.reset.phase = .empty ∧ (0 : Word).toNat ≤ State.reset.cfg.symMax ∧ (0xFFFFFFFF : Word) ≠ 0 ∧
      State.reset.leafCount = 0 ∧ State.reset.leafCount ≠ State.reset.cfg.lMax ∧
      State.reset.total.toNat + (0xFFFFFFFF : Word).toNat ≤ 0xFFFFFFFF) ∧
    (loadedA.phase = .loading ∧ (0x10FFFF : Word).toNat ≤ loadedA.cfg.symMax ∧
      (nodeGet loadedA.nodes (loadedA.leafCount - 1)).sym.toNat < (0x10FFFF : Word).toNat ∧
      loadedA.leafCount ≠ loadedA.cfg.lMax ∧ loadedA.total.toNat + (1 : Word).toNat ≤ 0xFFFFFFFF) ∧
    (latched 2 0x10FFFF 1 loadedA).busy = some ⟨2, 0x10FFFF, 1⟩ := by decide

/-- Each check of 2.2 in turn: (a), (b), (c), (d), (e), (f), none. -/
theorem test_witness_LoadFreqFirstFailingCheck :
    look State.err .ok (exec .loadFreq (latched 2 200 1 builtAB)) = .sequenceError ∧
    look State.err .ok (exec .loadFreq (latched 2 0x110000 1 loadedA)) = .invalidInput ∧
    look State.err .ok (exec .loadFreq (latched 2 98 0 loadedA)) = .invalidInput ∧
    look State.err .ok (exec .loadFreq (latched 2 97 1 loadedA)) = .invalidInput ∧
    look State.err .ok (exec .loadFreq (latched 2 99 1 { loadedAB with cfg := { Params.default with lMax := 2 } })) =
      .capacityExceeded ∧
    look State.err .ok (exec .loadFreq (latched 2 98 0xFFFFFFFC loadedA)) = .capacityExceeded ∧
    look State.err .illegalCommand (exec .loadFreq (latched 2 98 0xFFFFFFFB loadedA)) = .ok := by decide

theorem test_witness_ContextCommandsFrame :
    (∃ t, exec .nop loadedAB = .next t) ∧ (∃ t, exec .loadFreq (latched 2 99 1 loadedAB) = .next t) ∧
    (∃ t, exec .buildTree loadedAB = .next t) ∧ (∃ t, exec .genCodes builtAB = .next t) :=
  ⟨⟨_, rfl⟩, ⟨_, rfl⟩, ⟨_, rfl⟩, ⟨_, rfl⟩⟩

/-- The OK and the failing case; the container of "ab" has 15 bytes. -/
theorem test_witness_EncodeFrame :
    (latched 5 2 0 readyAB).busy = some ⟨5, 2, 0⟩ ∧
    (container (codeEntries (latched 5 2 0 readyAB)) (encodeBits (latched 5 2 0 readyAB) 2)).length = 15 ∧
    (∃ t, exec .encode (latched 5 2 0 readyAB) = .next t ∧ t.err = .ok) ∧
    (∃ t, exec .encode (latched 5 1 0 readyAB) = .next t ∧ t.err ≠ .ok) :=
  ⟨rfl, by decide, ⟨_, rfl, by decide⟩, ⟨_, rfl, by decide⟩⟩

theorem test_witness_DecodeFrame :
    (latched 6 10 0 (holding containerAaaa)).busy = some ⟨6, 10, 0⟩ ∧
    decodeResult (latched 6 10 0 (holding containerAaaa)) 10 = .ok ⟨4, 4, [97, 97, 97, 97]⟩ ∧
    (∃ t, exec .decode (latched 6 10 0 (holding containerAaaa)) = .next t ∧ t.err = .ok) ∧
    (∃ t, exec .decode (latched 6 9 0 (holding containerAaaa)) = .next t ∧ t.err ≠ .ok) :=
  ⟨rfl, by decide, ⟨_, rfl, by decide⟩, ⟨_, rfl, by decide⟩⟩

/-- Three equal weights: the lowest index is popped. -/
theorem test_witness_PopTakesLeastKey :
    popMin [leafNode 97 1, leafNode 98 1, leafNode 99 1] [2, 1, 0] = some (0, [2, 1]) := by decide

/-- One leaf, and two. -/
theorem test_witness_BuildTreeCompletes :
    (loadedA.phase = .loading ∧ ContextOk loadedA ∧ loadedA.leafCount = 1) ∧
    (loadedAB.phase = .loading ∧ ContextOk loadedAB ∧ 2 ≤ loadedAB.leafCount) :=
  ⟨⟨rfl, loadedA_ok, rfl⟩, rfl, loadedAB_ok, by decide⟩

theorem test_witness_SingleSymbolTree :
    loadedA.phase = .loading ∧ loadedA.leafCount = 1 ∧ (nodeGet loadedA.nodes 0).kind = .leaf := by decide

theorem test_witness_MergePicksTwoLeast :
    2 ≤ loadedAB.nodes.length ∧ (∀ r ∈ loadedAB.nodes, r.kind = .leaf) ∧ 2 ≤ 2 * loadedAB.nodes.length - 2 := by decide

theorem test_witness_BuildTreeOutOfPhase :
    State.reset.phase = .empty ∧ builtAB.phase = .treeBuilt ∧ readyAB.phase = .codesReady := by decide

theorem test_witness_TreeIsOptimal :
    loadedAB.phase = .loading ∧ ContextOk loadedAB ∧ 2 ≤ loadedAB.leafCount ∧
    (∃ t, exec .buildTree loadedAB = .next t) ∧
    (treeLeaves (.node (.leaf 1) (.leaf 0))).Perm (List.range loadedAB.leafCount) :=
  ⟨rfl, loadedAB_ok, by decide, ⟨_, rfl⟩, by decide⟩

theorem test_witness_GenCodesFillsTheTable :
    (builtAB.phase = .treeBuilt ∧ builtAB.cfg.legal = true ∧ ContextOk builtAB) ∧ loadedAB.phase ≠ .treeBuilt :=
  ⟨⟨rfl, by decide, builtAB_ok⟩, by decide⟩

/-- For CodesArePrefixFree and CodesAscend. -/
theorem test_witness_Codes : ContextOk builtAB ∧ ∃ t, exec .genCodes builtAB = .next t ∧ t.err = .ok :=
  ⟨builtAB_ok, _, rfl, by decide⟩

/-- One leaf (with its dummy), and two. -/
theorem test_witness_CodeIsThePathToItsLeaf :
    TreeOk (singleTree (leafNode 97 4)) 1 ∧ codeTable (singleTree (leafNode 97 4)) = [⟨97, [false]⟩] ∧
    TreeOk builtAB.nodes 2 ∧ (codeTable builtAB.nodes).length = 2 := by decide

theorem test_witness_TableTextLength :
    readyAB.ct ≠ [] ∧ readyAB.ct.length ≤ 256 ∧
    (∀ e ∈ readyAB.ct, e.sym.toNat ≤ 0x10FFFF ∧ e.bits.length ≤ 255) := by decide

theorem test_witness_DecimalSpelling : decText 0 = [0x30] ∧ decText 0x10FFFF = [0x31, 0x31, 0x31, 0x34, 0x31, 0x31, 0x31] := by
  decide

theorem test_ready_counts : ∀ w, [(97 : Word), 98].count w = weightOf (readyAB.nodes.take readyAB.leafCount) w := by
  intro w
  by_cases h : w = 97
  · subst h; decide
  · by_cases h' : w = 98
    · subst h'; decide
    · have e : readyAB.nodes.take readyAB.leafCount = [leafNode 97 1, leafNode 98 1] := rfl
      rw [e]
      simp only [List.count_cons, weightOf, List.filter, leafNode, beq_eq_false_iff_ne.mpr (Ne.symm h),
        beq_eq_false_iff_ne.mpr (Ne.symm h')]
      rfl

/-- BYT_BYTES = 15 holds the 15 bytes exactly (2.5.22). -/
theorem test_witness_EncodeWritesContainer :
    let s := latched 5 2 0 { readyAB with cfg := { Params.default with bytBytes := 15 } }
    s.busy = some ⟨5, 2, 0⟩ ∧ s.phase = .codesReady ∧ s.cfg.legal = true ∧ ContextOk s ∧
    (2 : Word).toNat ≤ s.cfg.symWords ∧ [97, 98] = symSlice s (2 : Word).toNat ∧
    (∀ w, [(97 : Word), 98].count w = weightOf (s.nodes.take s.leafCount) w) ∧
    [false, true] = [(97 : Word), 98].flatMap (codeOf s.ct) ∧
    5 + (tableText s.ct).length + ([false, true].length + 7) / 8 = s.cfg.bytBytes := by
  exact ⟨rfl, rfl, by decide, contextOk_ready rfl (by decide), by decide, by decide, test_ready_counts, by decide, by decide⟩

/-- Each check of 2.5 in turn: (a), (b), (c), (d), (e), (f), none. -/
theorem test_witness_EncodeFirstFailingCheck :
    look State.err .ok (exec .encode (latched 5 1 0 loadedA)) = .sequenceError ∧
    look State.err .ok (exec .encode (latched 5 65537 0 readyAB)) = .capacityExceeded ∧
    look State.err .ok (exec .encode (latched 5 2 0 { readyAB with sym := [(0, 97), (1, 99)] })) = .invalidInput ∧
    look State.err .ok (exec .encode (latched 5 2 0 { readyAB with sym := [(0, 97), (1, 97)] })) = .invalidInput ∧
    look State.err .ok (exec .encode (latched 5 1 0 readyAB)) = .invalidInput ∧
    look State.err .ok (exec .encode (latched 5 2 0 { readyAB with cfg := { Params.default with bytBytes := 14 } })) =
      .capacityExceeded ∧
    look State.err .illegalCommand (exec .encode (latched 5 2 0 readyAB)) = .ok := by decide

theorem test_witness_ScanAcceptsTheLoadedMultiset :
    loadedAB.nodes.Pairwise (fun a b => a.sym ≠ b.sym) ∧ inputMatches loadedAB.nodes [98, 97] = true ∧
    inputMatches loadedAB.nodes [98, 98] = false := by decide

theorem test_witness_PayloadBitCount :
    readyAB.phase = .codesReady ∧ ContextOk readyAB ∧
    (∀ w, [(97 : Word), 98].count w = weightOf (readyAB.nodes.take readyAB.leafCount) w) :=
  ⟨rfl, readyAB_ok, test_ready_counts⟩

/-- "aaaa" (2.6.1 a) with SYM_WORDS = 4, the number of symbols. -/
theorem test_witness_DecodeWritesSymbols :
    let s := latched 6 10 0 { holding containerAaaa with cfg := { Params.default with symWords := 4, bytBytes := 10 } }
    let text : List Byte := [0x39, 0x37, 0x3A, 0x30]
    s.busy = some ⟨6, 10, 0⟩ ∧ s.cfg.legal = true ∧ (10 : Word).toNat ≤ s.cfg.bytBytes ∧
    bytSlice s (10 : Word).toNat = 0x04 :: 0x00 :: 0x00 :: 0x00 :: 0x04 :: (text ++ [0x00]) ∧
    (0x00 : Byte).toNat * 2 ^ 24 + (0x00 : Byte).toNat * 2 ^ 16 + (0x00 : Byte).toNat * 2 ^ 8 + (0x04 : Byte).toNat =
      text.length ∧
    parseTable text = some [(97, [false])] ∧ buildTrie s.cfg [(97, [false])] = .ok (.node (.leaf 97) .absent) ∧
    (0x04 : Byte).toNat ≤ 8 * [(0x00 : Byte)].length ∧
    walkBits (.node (.leaf 97) .absent) none ((unpackBits [0x00]).take (8 * [(0x00 : Byte)].length - (0x04 : Byte).toNat)) =
      some [97, 97, 97, 97] ∧ [(97 : Word), 97, 97, 97].length ≤ s.cfg.symWords := by
  refine ⟨rfl, by decide, by decide, by decide, by decide, by decide, by rfl, by decide, by decide, by decide⟩

/-- (a) ARG0 = BYT_BYTES + 1, (b) ARG0 = 4, (c) ARG0 = 5 with T = 1, and ARG0 = 9 with T = 4, which goes on. -/
theorem test_witness_DecodeHeaderChecks :
    look State.err .ok (exec .decode (latched 6 262145 0 State.reset)) = .capacityExceeded ∧
    look State.err .ok (exec .decode (latched 6 4 0 (holding [0, 0, 0, 0]))) = .malformedContainer ∧
    look State.err .ok (exec .decode (latched 6 5 0 (holding [0, 0, 0, 0, 1]))) = .malformedContainer ∧
    look State.err .illegalCommand (exec .decode (latched 6 9 0 (holding [0, 0, 0, 0, 4, 0x39, 0x37, 0x3A, 0x30]))) = .ok := by
  decide

/-- (d): vector 2.6.2 i, a space in the table text; (e): vectors 2.6.2 n and o, a repeated symbol and a repeated code. -/
theorem test_witness_DecodeTableChecks :
    look State.err .ok (exec .decode (latched 6 11 0 (holding [4, 0, 0, 0, 5, 0x39, 0x37, 0x3A, 0x20, 0x30, 0]))) =
      .malformedContainer ∧
    parseTable [0x39, 0x37, 0x3A, 0x20, 0x30] = none ∧
    look State.err .ok (exec .decode (latched 6 15 0
      (holding [6, 0, 0, 0, 9, 0x39, 0x37, 0x3A, 0x30, 0x0A, 0x39, 0x37, 0x3A, 0x31, 0x40]))) = .malformedContainer ∧
    look State.err .ok (exec .decode (latched 6 15 0
      (holding [6, 0, 0, 0, 9, 0x39, 0x37, 0x3A, 0x30, 0x0A, 0x39, 0x38, 0x3A, 0x30, 0x40]))) = .malformedContainer := by
  decide

/-- The entry checks by hand from R276 and R277: (e1), (e2), (e3), (e4), (e5) as a repeated code, a longer and a shorter code, and
no node left, with L_MAX = 2 (three nodes, codes of one bit) or 3 (five nodes, codes of two bits); the last table passes. -/
theorem test_table_status :
    let two : Params := { Params.default with lMax := 2 }
    let three : Params := { Params.default with lMax := 3 }
    tableStatus two [(0x110000, [false, false])] = some .malformedContainer ∧
    tableStatus two [(1, [false, false])] = some .capacityExceeded ∧
    tableStatus two [(1, [false]), (2, [true]), (1, [false])] = some .capacityExceeded ∧
    tableStatus two [(1, [false]), (1, [true])] = some .malformedContainer ∧
    tableStatus two [(1, [false]), (2, [false])] = some .malformedContainer ∧
    tableStatus three [(1, [false]), (2, [false, true])] = some .malformedContainer ∧
    tableStatus three [(1, [false, true]), (2, [false])] = some .malformedContainer ∧
    tableStatus three [(1, [false, false]), (2, [true, false]), (3, [false, true])] = some .capacityExceeded ∧
    tableStatus three [(1, [false, false]), (2, [false, true]), (3, [true])] = none := by decide

/-- 2.6.3 b (f), 2.6.3 c (g), 2.6.4 d (h) and 2.6.1 f (none), all with the table "97:0". -/
theorem test_witness_DecodePayloadChecks :
    look State.err .ok (exec .decode (latched 6 10 0 (holding [9, 0, 0, 0, 4, 0x39, 0x37, 0x3A, 0x30, 0]))) =
      .corruptContainer ∧
    look State.err .ok (exec .decode (latched 6 10 0 (holding [7, 0, 0, 0, 4, 0x39, 0x37, 0x3A, 0x30, 0x80]))) =
      .corruptContainer ∧
    look State.err .ok (exec .decode (latched 6 10 0
      { holding [0, 0, 0, 0, 4, 0x39, 0x37, 0x3A, 0x30, 0] with cfg := { Params.default with symWords := 7 } })) =
      .capacityExceeded ∧
    look State.err .illegalCommand (exec .decode (latched 6 10 0 (holding [8, 0, 0, 0, 4, 0x39, 0x37, 0x3A, 0x30, 0]))) =
      .ok := by decide

theorem test_witness_TableTextParsesBack :
    readyAB.ct ≠ [] ∧ (∀ e ∈ readyAB.ct, e.bits ≠ []) ∧
    parseTable (tableText readyAB.ct) = some [(97, [false]), (98, [true])] := by decide

/-- For ParserAcceptsTheGrammar: leading zeros (R126). -/
theorem test_witness_ParserAcceptsTheGrammar :
    parseTable [0x30, 0x30, 0x39, 0x38, 0x3A, 0x31] = some [(98, [true])] ∧
    IsTable [0x30, 0x30, 0x39, 0x38, 0x3A, 0x31] [(98, [true])] :=
  ⟨by decide, [[0x30, 0x30, 0x39, 0x38]], by decide, by decide, by decide, by decide, by decide, by decide⟩

/-- For AcceptedTablesArePrefixFree and WalkAgreesWithGreedyMatcher: an accepted table, and one a node too large (L_MAX = 3). -/
theorem test_witness_AcceptedTables :
    (∀ e ∈ [((97 : Nat), [false]), (98, [true])], e.2 ≠ []) ∧ Params.default.legal = true ∧
    buildTrie Params.default [(97, [false]), (98, [true])] = .ok (.node (.leaf 97) (.leaf 98)) ∧
    trieSize [[false], [true]] = 3 ∧ ({ Params.default with lMax := 3 } : Params).nodeMax = 5 ∧
    trieSize [[false, false], [true, false], [false, true]] = 6 := by decide

theorem test_witness_DecodeInvertsEncode :
    (latched 5 2 0 readyAB).busy = some ⟨5, 2, 0⟩ ∧ (latched 5 2 0 readyAB).cfg.legal = true ∧
    ContextOk (latched 5 2 0 readyAB) ∧
    ∃ t, exec .encode (latched 5 2 0 readyAB) = .next t ∧ t.err = .ok ∧
      (latched 6 15 0 t).cfg = (latched 5 2 0 readyAB).cfg ∧ (latched 6 15 0 t).busy = some ⟨6, 15, 0⟩ ∧
      (15 : Word) = t.outLen ∧ (∀ j, j < t.outLen.toNat → bytAt (latched 6 15 0 t) j = bytAt t j) :=
  ⟨rfl, by decide, readyAB_ok, _, rfl, by decide, rfl, rfl, by decide, fun _ _ => rfl⟩

/-- For the statements over host accesses to a block out of reset, idle and busy, at the edges of each range of offsets. -/
theorem test_witness_windows :
    State.reset.rst = false ∧ State.reset.busy = none ∧
    (latched 0 0 0 State.reset).rst = false ∧ (latched 0 0 0 State.reset).busy.isSome = true ∧
    locate 0x048 = .pBytbytes ∧ locate 0x04C = .reserved ∧ locate 0x0FFFFC = .reserved ∧ locate 0x100000 = .node 0 0 ∧
    locate 0x103FFC = .node 511 7 ∧ locate 0x104000 = .node 512 0 ∧ locate 0x1FFFFC = .node 32767 7 ∧
    locate 0x200000 = .code 0 0 ∧ locate 0x203FFC = .code 255 15 ∧ locate 0x204000 = .code 256 0 ∧
    locate 0x2FFFFC = .code 16383 15 ∧ locate 0x300000 = .reserved ∧ locate 0x3FFFFC = .reserved ∧
    locate 0x400000 = .sym 0 ∧ locate 0x7FFFFC = .sym (2 ^ 20 - 1) ∧ locate 0x800000 = .byt 0 ∧
    locate 0xFFFFFC = .byt (2 ^ 21 - 1) := by decide

/-- ReadsHaveNoSideEffect, busy: STATUS keeps its value, RES0 and CMD are drawn, reserved offsets read 0. -/
theorem test_witness_ReadsHaveNoSideEffect :
    (0x00C : Offset) ∈ [(0x000 : Offset), 0x004, 0x008, 0x00C, 0x014, 0x018, 0x03C, 0x040, 0x044, 0x048] ∧
    (0x01C : Offset) ∉ [(0x000 : Offset), 0x004, 0x008, 0x00C, 0x014, 0x018, 0x03C, 0x040, 0x044, 0x048] ∧
    (0x01C : Offset).toNat % 4 = 0 ∧
    look (fun t => t.draws) 9 (hostMove (rd 0x01C) (latched 0 0 0 State.reset)) = 1 ∧
    look (fun t => t.draws) 9 (hostMove (rd offCmd) (latched 0 0 0 State.reset)) = 1 ∧
    look (fun t => t.reads) [9] (hostMove (rd 0x04C) (latched 0 0 0 State.reset)) = [0] ∧
    look (fun t => t.reads) [9] (hostMove (rd 0x3FFFFC) (latched 0 0 0 State.reset)) = [0] := by decide

/-- R30: each result and count register at its own offset of an idle block. -/
theorem test_register_offsets :
    let s := { State.reset with
      res0 := 1, res1 := 2, res2 := 3, outLen := 4, leafCount := 5, total := 6, nodeCount := 7, ctCount := 8 }
    [0x010, 0x01C, 0x020, 0x024, 0x028, 0x02C, 0x030, 0x034, 0x038].map
      (fun off => look (fun t => t.reads) [] (hostMove (rd off) s)) = [[0], [1], [2], [3], [4], [5], [6], [7], [8]] := by
  decide

/-- NodeWindow: record 2 word 4 of the tree of "ab", and record 3 past the count. -/
theorem test_witness_NodeWindow :
    builtAB.busy = none ∧ (0x100050 : Offset).toNat = 0x100000 + 32 * 2 + 4 * 4 ∧ 2 < builtAB.nodeCount ∧
    readLoc builtAB (locate 0x100050) = 1 ∧ readLoc builtAB (locate 0x100060) = 0 := by decide

/-- CodeWindow: BITS_0 of record 1 of the table of "ab". -/
theorem test_witness_CodeWindow :
    readyAB.busy = none ∧ (0x200048 : Offset).toNat = 0x200000 + 64 * 1 + 4 * 2 ∧ 1 < readyAB.ctCount ∧
    readyAB.ct[1]? = some ⟨98, [true]⟩ ∧ readLoc readyAB (locate 0x200048) = 0x80000000 := by decide

/-- DataWindows: the last configured index and the first past it (2.7.11 gives the low byte). -/
theorem test_witness_DataWindows :
    look (fun t => symAt t 65535) 0 (hostMove (wr (offSym 65535) 7) State.reset) = 7 ∧
    look (fun t => decide (t = State.reset)) false (hostMove (wr (offSym 65536) 7) State.reset) = true ∧
    look (fun t => bytAt t 262143) 0 (hostMove (wr (offByt 262143) 7) State.reset) = 7 ∧
    look (fun t => decide (t = State.reset)) false (hostMove (wr (offByt 262144) 7) State.reset) = true := by decide

/-- RefusedMovesExactly: each reason once, and a busy read of STATUS, which keeps the protocol. -/
theorem test_witness_RefusedMovesExactly :
    hostMove .wait { State.reset with rst := true } = .refused .accessDuringReset ∧
    hostMove (.read 16 0x00C) State.reset = .refused .busError ∧
    hostMove (.write 32 0x00E 0) State.reset = .refused .busError ∧
    hostMove (.write 32 0x400000 0) (latched 0 0 0 State.reset) = .refused .dataWriteWhileBusy ∧
    hostMove (.write 32 0xFFFFFC 0) (latched 0 0 0 State.reset) = .refused .dataWriteWhileBusy ∧
    (rd offStatus).wf = true ∧ keepsProtocol (latched 0 0 0 State.reset) (rd offStatus) = true :=
  ⟨by rfl, by rfl, by rfl, by rfl, by rfl, by decide, by decide⟩

/-- A completed command with the interrupt enabled, and the host's next move `m`. -/
def raised (m : HostMove) : State := { State.reset with irqEn := true, done := true, script := [m] }

/-- OnlyTheseClearIrq: each of the four moves lowers irq. -/
theorem test_witness_OnlyTheseClearIrq :
    irq (raised .assertRst) = true ∧
    look irq true (step (raised .assertRst)) = false ∧ look irq true (step (raised (wr offStatus 2))) = false ∧
    look irq true (step (raised (wr offCmd 0))) = false ∧ look irq true (step (raised (wr offCtrl 0xFFFFFFFE))) = false ∧
    look irq false (step (raised (wr offCtrl 1))) = true := by decide

/-- OnlyTheseClearIrq: a completion sets DONE, and so raises irq. -/
theorem test_completion_raises_irq :
    irq (latched 0 0 0 { State.reset with irqEn := true }) = false ∧
    look irq false (step (latched 0 0 0 { State.reset with irqEn := true })) = true := by decide

/-- The invariants in a state that has run, and a step from it. -/
theorem test_witness_StepKeepsContext : ContextOk (latched 4 0 0 builtAB) ∧ ∃ t, step (latched 4 0 0 builtAB) = .next t :=
  ⟨builtAB_ok, _, rfl⟩

theorem test_witness_StepKeepsMemoryForm :
    MemoryOk (latched 5 2 0 readyAB) ∧ ∃ t, step (latched 5 2 0 readyAB) = .next t := ⟨by decide, _, rfl⟩

theorem test_witness_StepKeepsLatchAndReset :
    (LatchOk (latched 0 0 0 State.reset) ∧ ResetOk (latched 0 0 0 State.reset) ∧
      ∃ t, step (latched 0 0 0 State.reset) = .next t) ∧
    (LatchOk (assertReset State.reset) ∧ ResetOk (assertReset State.reset) ∧
      ∃ t, step (assertReset State.reset) = .next t) :=
  ⟨⟨by decide, by decide, _, rfl⟩, by decide, by decide, _, rfl⟩

end Sys2Proof.Tests
end

namespace Sys2Proof.Proofs

open Sys2Proof.Machine Sys2Proof.Safety Sys2Proof.Laws

/-! ## What a step can do, said once -/

/-- A host write changes registers, the latch and the memories, and neither the parameters, `rst`, the context nor the model's
own fields. -/
theorem writeLoc_block (l : Loc) (v : Word) (s : State) :
    writeLoc l v s =
      { s with irqEn := (writeLoc l v s).irqEn, busy := (writeLoc l v s).busy, done := (writeLoc l v s).done,
               cmdDropped := (writeLoc l v s).cmdDropped, err := (writeLoc l v s).err,
               arg0 := (writeLoc l v s).arg0, arg1 := (writeLoc l v s).arg1,
               sym := (writeLoc l v s).sym, byt := (writeLoc l v s).byt } := by
  cases l
  case cmd => cases hb : s.busy <;> simp [writeLoc, issue, hb]
  case sym i => by_cases hi : i < s.cfg.symWords <;> simp [writeLoc, symPut, hi]
  case byt j => by_cases hj : j < s.cfg.bytBytes <;> simp [writeLoc, bytPut, hj]
  all_goals rfl

/-- No command changes the parameters, `rst`, ARG0 or ARG1 (R42, R91). -/
theorem exec_frame {i : Instr} {s t : State} (h : exec i s = .next t) :
    t.cfg = s.cfg ∧ t.rst = s.rst ∧ t.arg0 = s.arg0 ∧ t.arg1 = s.arg1 := by
  cases i
  case nop => simp [exec_nop_next h]
  case clear => simp [exec_clear_next h]
  case loadFreq => obtain ⟨_, -, rfl⟩ | ⟨-, rfl⟩ := exec_loadFreq_next h <;> simp
  case buildTree => obtain ⟨-, rfl⟩ | ⟨-, -, rfl⟩ | ⟨-, rfl⟩ := exec_buildTree_next h <;> simp
  case genCodes => obtain ⟨-, rfl⟩ | ⟨-, rfl⟩ := exec_genCodes_next h <;> simp
  case encode => obtain ⟨_, -, rfl⟩ | ⟨-, rfl⟩ := exec_encode_next h <;> simp
  case decode => obtain ⟨_, -, rfl⟩ | ⟨_, -, rfl⟩ := exec_decode_next h <;> simp

/-- What one turn can make of a state, the schedule and the script apart: the host does nothing, reads or polls; the host writes a
location; `rst` moves; the core completes a command or a word that names none. -/
inductive TurnEffect (s : State) : State → Prop where
  | hostSide (script : List HostMove) (reads : List Word) (draws : Nat) :
      TurnEffect s { s with script := script, reads := reads, draws := draws }
  | hostWrite (loc : Loc) (v : Word) (released : s.rst = false)
      (allowed : (s.busy.isSome && inDataWindow loc) = false) : TurnEffect s (writeLoc loc v s)
  | assertRst : TurnEffect s (assertReset s)
  | releaseRst : TurnEffect s (releaseReset s)
  | command {t : State} (i : Instr) (l : Latch) (released : s.rst = false) (latched : s.busy = some l)
      (named : decode l.cmd = .ok i) (answers : exec i s = .next t) : TurnEffect s t
  | illegal (l : Latch) (released : s.rst = false) (latched : s.busy = some l) :
      TurnEffect s (finish .illegalCommand (setRes 0 0 0 s))

theorem coreTurn_effect {s t : State} (h : coreTurn s = .next t) : TurnEffect s t := by
  obtain rfl | ⟨l, i, hr, hb, hd, he⟩ | ⟨l, _, hr, hb, -, rfl⟩ := coreTurn_next h
  · exact .hostSide t.script t.reads t.draws
  · exact .command i l hr hb hd he
  · exact .illegal l hr hb

theorem hostMove_effect {m : HostMove} {s t : State} (h : hostMove m s = .next t) : TurnEffect s t := by
  obtain ⟨-, rfl⟩ | ⟨-, rfl⟩ | ⟨hr, ⟨off, -, -, rfl⟩ | ⟨off, v, -, -, hw, rfl⟩ | ⟨-, rfl⟩ | ⟨-, rfl⟩⟩ := hostMove_next h
  · exact .assertRst
  · exact .releaseRst
  · rw [hostRead_block]; exact .hostSide s.script _ _
  · exact .hostWrite _ v hr hw
  · rw [pollBusy_block]; exact .hostSide _ _ s.draws
  · rw [pollErr_block]; exact .hostSide _ _ s.draws

/-- A step is one turn, taken from the state with its schedule and script moved on. -/
theorem step_effect {s t : State} (h : step s = .next t) :
    ∃ turns script, TurnEffect { s with turns := turns, script := script } t := by
  obtain ⟨-, h⟩ | ⟨-, h⟩ := step_next h
  · obtain ⟨-, rfl⟩ | ⟨m, ms, -, hm⟩ := hostTurn_next h
    · exact ⟨s.turns.tail, s.script, .hostSide s.script s.reads s.draws⟩
    · exact ⟨s.turns.tail, ms, hostMove_effect hm⟩
  · exact ⟨s.turns.tail, s.script, coreTurn_effect h⟩

/-- A turn changes no parameter (log 1). -/
theorem TurnEffect.cfg {s t : State} (h : TurnEffect s t) : t.cfg = s.cfg := by
  cases h
  case hostWrite loc v _ _ => rw [writeLoc_block]
  case command i l _ _ _ he => exact (exec_frame he).1
  all_goals rfl

/-! ## The latch and the reset values -/

/-- A host write keeps LatchOk: only an issue latches a word, and it clears DONE and ERR (R160). -/
theorem latchOk_writeLoc {s : State} (h : LatchOk s) (loc : Loc) (v : Word) : LatchOk (writeLoc loc v s) := by
  cases loc
  case cmd => cases hb : s.busy <;> simp_all [LatchOk, writeLoc, issue]
  case status => intro hb; simp [writeLoc, h hb]
  case sym i => by_cases hi : i < s.cfg.symWords <;> simpa [LatchOk, writeLoc, symPut, hi] using h
  case byt j => by_cases hj : j < s.cfg.bytBytes <;> simpa [LatchOk, writeLoc, bytPut, hj] using h
  all_goals exact h

theorem turnEffect_keeps_latchOk {s t : State} (h : LatchOk s) (ht : TurnEffect s t) : LatchOk t := by
  cases ht
  case hostSide => exact h
  case hostWrite loc v _ _ => exact latchOk_writeLoc h loc v
  case releaseRst => exact h
  case command i l _ _ _ he => simp [LatchOk, exec_completed he]
  case assertRst => simp [LatchOk, assertReset, State.resetWith]
  case illegal => simp [LatchOk]

/-- The host's own fields are outside the reset values. -/
theorem resetOk_hostSide {s : State} (h : ResetOk s) (script : List HostMove) (turns : List Agent) (reads : List Word)
    (draws : Nat) : ResetOk { s with script := script, turns := turns, reads := reads, draws := draws } := by
  intro hr
  conv_lhs => rw [h hr]

/-- ResetOk holds vacuously while `rst` is released; while it is asserted only the host's own fields and `rst` move. -/
theorem turnEffect_keeps_resetOk {s t : State} (h : ResetOk s) (ht : TurnEffect s t) : ResetOk t := by
  cases ht
  case hostSide script reads draws => exact resetOk_hostSide h script s.turns reads draws
  case hostWrite loc v hr _ => intro ht; rw [writeLoc_block] at ht; simp [hr] at ht
  case assertRst => intro _; rfl
  case releaseRst => simp [ResetOk]
  case command i l hr _ _ he =>
    obtain ⟨-, hrst, -, -⟩ := exec_frame he
    simp [ResetOk, hrst, hr]
  case illegal l hr _ => simp [ResetOk, hr]

/-- Settles O60, case by case over what a turn can do. -/
theorem stepKeepsLatchAndReset : Obligations.StepKeepsLatchAndReset := by
  intro s t hl hr h
  obtain ⟨turns, script, ht⟩ := step_effect h
  exact ⟨turnEffect_keeps_latchOk (by exact hl) ht,
    turnEffect_keeps_resetOk (resetOk_hostSide hr script turns s.reads s.draws) ht⟩

/-! ## The memories' canonical form -/

/-- A host write keeps the canonical form: it writes below the configured size or nowhere (R81). -/
theorem memoryOk_writeLoc {s : State} (h : MemoryOk s) (loc : Loc) (v : Word) : MemoryOk (writeLoc loc v s) := by
  cases loc
  case cmd => cases hb : s.busy <;> simpa [writeLoc, issue, hb] using h
  case sym i =>
    by_cases hi : i < s.cfg.symWords
    · rw [writeLoc, symPut, if_pos hi]
      exact ⟨cellPut_wf v h.1 hi, h.2⟩
    · simpa [writeLoc, symPut, hi] using h
  case byt j =>
    by_cases hj : j < s.cfg.bytBytes
    · rw [writeLoc, bytPut, if_pos hj]
      exact ⟨h.1, cellPut_wf (v.setWidth 8) h.2 hj⟩
    · simpa [writeLoc, bytPut, hj] using h
  all_goals exact h

/-- Check (f) of R241: a container that ENCODE writes fits BYT. -/
theorem encodeCheck_none_fits {s : State} {n : Nat} (h : encodeCheck s n = none) :
    (container (codeEntries s) (encodeBits s n)).length ≤ s.cfg.bytBytes := by
  rw [length_container]
  unfold encodeCheck at h
  split_ifs at h with h1 h2 h3 h4
  omega

/-- A command keeps the canonical form: ENCODE's container fits BYT and DECODE's symbols fit SYM. -/
theorem exec_keeps_memoryOk {i : Instr} {s t : State} (h : MemoryOk s) (he : exec i s = .next t) : MemoryOk t := by
  cases i
  case nop => rw [exec_nop_next he]; exact h
  case clear => rw [exec_clear_next he]; exact h
  case loadFreq => obtain ⟨_, -, rfl⟩ | ⟨-, rfl⟩ := exec_loadFreq_next he <;> exact h
  case buildTree => obtain ⟨-, rfl⟩ | ⟨-, -, rfl⟩ | ⟨-, rfl⟩ := exec_buildTree_next he <;> exact h
  case genCodes => obtain ⟨-, rfl⟩ | ⟨-, rfl⟩ := exec_genCodes_next he <;> exact h
  case encode =>
    obtain ⟨_, -, rfl⟩ | ⟨hc, rfl⟩ := exec_encode_next he
    · exact h
    · exact ⟨h.1, cellFill_wf h.2 (encodeCheck_none_fits hc)⟩
  case decode =>
    obtain ⟨_, -, rfl⟩ | ⟨d, hd, rfl⟩ := exec_decode_next he
    · exact h
    · exact ⟨cellFill_wf h.1 (decodeResult_length hd), h.2⟩

theorem turnEffect_keeps_memoryOk {s t : State} (h : MemoryOk s) (ht : TurnEffect s t) : MemoryOk t := by
  cases ht
  case hostWrite loc v _ _ => exact memoryOk_writeLoc h loc v
  case assertRst => exact ⟨rfl, rfl⟩
  case command i l _ _ _ he => exact exec_keeps_memoryOk h he
  all_goals exact h

/-- Settles O59, case by case over what a turn can do. -/
theorem stepKeepsMemoryForm : Obligations.StepKeepsMemoryForm := by
  intro s t hm h
  obtain ⟨turns, script, ht⟩ := step_effect h
  exact turnEffect_keeps_memoryOk (by exact hm) ht

end Sys2Proof.Proofs

namespace Sys2Proof.Proofs

open Sys2Proof.Machine Sys2Proof.Safety Sys2Proof.Laws

/-! ## LOAD_FREQ and the leaves -/

/-- What LOAD_FREQ's checks (a) to (f) of R181 let through. -/
theorem loadFreqCheck_none {s : State} {a0 a1 : Word} (h : loadFreqCheck s a0 a1 = none) :
    (s.phase = .empty ∨ s.phase = .loading) ∧ a0.toNat ≤ s.cfg.symMax ∧ a1 ≠ 0 ∧
    (0 < s.leafCount → (nodeGet s.nodes (s.leafCount - 1)).sym.toNat < a0.toNat) ∧
    s.leafCount ≠ s.cfg.lMax ∧ s.total.toNat + a1.toNat ≤ 0xFFFFFFFF := by
  unfold loadFreqCheck at h
  split_ifs at h with hphase hsym hzero hlast hfull hsum
  refine ⟨?_, by omega, hzero, fun hpos => by by_contra hle; exact hlast ⟨hpos, by omega⟩, hfull, by omega⟩
  by_contra hne
  exact hphase ⟨fun he => hne (.inl he), fun hl => hne (.inr hl)⟩

/-- LeavesOk without its lower bound: what the leaves meet before the first LOAD_FREQ too. -/
abbrev LoadedOk (p : Params) (leaves : List Node) (total : Nat) : Prop :=
  leaves.length ≤ p.lMax ∧
  (∀ r ∈ leaves, r = leafNode r.sym r.weight ∧ r.sym.toNat ≤ p.symMax ∧ 1 ≤ r.weight.toNat) ∧
  leaves.Pairwise (fun a b => a.sym.toNat < b.sym.toNat) ∧
  total = (leaves.map (fun r => r.weight.toNat)).sum

theorem leavesOk_iff {p : Params} {leaves : List Node} {total : Nat} :
    LeavesOk p leaves total ↔ 1 ≤ leaves.length ∧ LoadedOk p leaves total := Iff.rfl

/-- In an ascending list of leaves the last symbol is the greatest. -/
theorem sym_le_last {leaves : List Node} (h : leaves.Pairwise (fun a b => a.sym.toNat < b.sym.toNat)) {r : Node}
    (hr : r ∈ leaves) : r.sym.toNat ≤ (nodeGet leaves (leaves.length - 1)).sym.toNat := by
  obtain ⟨i, hi, rfl⟩ := List.getElem_of_mem hr
  have hlast : nodeGet leaves (leaves.length - 1) = leaves[leaves.length - 1] := by
    simp [nodeGet, List.getElem?_eq_getElem (show leaves.length - 1 < leaves.length by omega)]
  rw [hlast]
  obtain hlt | rfl : i < leaves.length - 1 ∨ i = leaves.length - 1 := by omega
  · exact (List.pairwise_iff_getElem.1 h i _ hi (by omega) hlt).le
  · exact le_rfl

/-- One more leaf above all the loaded ones, within the limits of R181. -/
theorem leavesOk_append {p : Params} {leaves : List Node} {total : Nat} (h : LoadedOk p leaves total) {a0 a1 : Word}
    (hroom : leaves.length < p.lMax) (hsym : a0.toNat ≤ p.symMax) (hcount : 1 ≤ a1.toNat)
    (habove : ∀ r ∈ leaves, r.sym.toNat < a0.toNat) :
    LeavesOk p (leaves ++ [leafNode a0 a1]) (total + a1.toNat) := by
  obtain ⟨-, hleaf, hasc, hsum⟩ := h
  refine ⟨by simp, by simpa using hroom, fun r hr => ?_, ?_, by simp [hsum, leafNode]⟩
  · obtain hr | rfl : r ∈ leaves ∨ r = leafNode a0 a1 := by simpa using hr
    · exact hleaf r hr
    · exact ⟨rfl, hsym, hcount⟩
  · refine List.pairwise_append.2 ⟨hasc, by simp, fun r hr q hq => ?_⟩
    obtain rfl : q = leafNode a0 a1 := by simpa using hq
    exact habove r hr

/-- A write at the end of the records held appends (log 12). -/
theorem nodePut_length (ns : List Node) (r : Node) : nodePut ns ns.length r = ns ++ [r] := by simp [nodePut]

/-- EMPTY and LOADING have one invariant: the loaded leaves, perhaps none, and no code table (R50). -/
theorem contextOk_loadable {s : State} (h : ContextOk s) (hp : s.phase = .empty ∨ s.phase = .loading) :
    s.nodes.length = s.leafCount ∧ LoadedOk s.cfg s.nodes s.total.toNat ∧ s.ctCount = 0 ∧ s.ct = [] := by
  unfold ContextOk at h
  obtain hp | hp := hp <;> simp only [hp] at h
  · obtain ⟨hL, htot, -, hns, hcc, hct⟩ := h
    rw [hns, htot, hL]
    exact ⟨rfl, ⟨Nat.zero_le _, by simp, List.Pairwise.nil, rfl⟩, hcc, hct⟩
  · obtain ⟨hlen, -, hleaves, hcc, hct⟩ := h
    exact ⟨hlen, (leavesOk_iff.1 hleaves).2, hcc, hct⟩

theorem contextOk_loadLeaf {s : State} (h : ContextOk s) {a0 a1 : Word} (hc : loadFreqCheck s a0 a1 = none) :
    ContextOk (loadLeaf a0 a1 s) := by
  obtain ⟨hphase, hsym, hzero, hlast, hfull, hsum⟩ := loadFreqCheck_none hc
  obtain ⟨hlen, hloaded, hcc, hct⟩ := contextOk_loadable h hphase
  obtain ⟨hle, -, hasc, -⟩ := id hloaded
  have hroom : s.nodes.length < s.cfg.lMax := by omega
  have hcount : 1 ≤ a1.toNat := by
    have : a1.toNat ≠ 0 := fun h0 => hzero (BitVec.eq_of_toNat_eq (by simpa using h0))
    omega
  have htotal : (s.total + a1).toNat = s.total.toNat + a1.toNat := by
    rw [BitVec.toNat_add, Nat.mod_eq_of_lt (by omega)]
  have habove : ∀ r ∈ s.nodes, r.sym.toNat < a0.toNat := by
    intro r hr
    have hpos := List.length_pos_of_mem hr
    have hle := sym_le_last hasc hr
    rw [hlen] at hle hpos
    exact lt_of_le_of_lt hle (hlast hpos)
  refine ⟨by simp, rfl, ?_, hcc, hct⟩
  simp only [loadLeaf_nodes, loadLeaf_cfg, loadLeaf_total, htotal, ← hlen, nodePut_length]
  exact leavesOk_append hloaded hroom hsym hcount habove

/-! ## BUILD_TREE: the queue and the tree under construction -/

theorem queueMin_mem {ns : List Node} {q : List Nat} {a : Nat} (h : queueMin ns q = some a) : a ∈ q := by
  induction q generalizing a with
  | nil => cases h
  | cons i q ih =>
    unfold queueMin at h
    split at h
    · simp_all
    · rename_i j hj
      split at h
      · obtain rfl : j = a := by simpa using h
        exact List.mem_cons_of_mem _ (ih hj)
      · simp_all

/-- Pop takes a queued index out of a non-empty queue (R185). -/
theorem popMin_some {ns : List Node} {q : List Nat} (h : q ≠ []) : ∃ a ∈ q, popMin ns q = some (a, q.erase a) := by
  unfold popMin
  cases ha : queueMin ns q with
  | some a => exact ⟨a, queueMin_mem ha, rfl⟩
  | none =>
    obtain ⟨i, q', rfl⟩ := List.exists_cons_of_ne_nil h
    unfold queueMin at ha
    split at ha
    · cases ha
    · split at ha <;> cases ha

/-- The RAM after a pass that pops `a`, then `b` (R189). -/
abbrev joined (ns : List Node) (a b : Nat) : List Node :=
  ns ++ [internalNode ((nodeGet ns a).weight + (nodeGet ns b).weight) a b]

/-- A pass of Merge on two or more indices pops two of them, and queues their parent, the record it appends (R189). -/
theorem mergeStep_some {ns : List Node} {q : List Nat} (h : 2 ≤ q.length) :
    ∃ a b rest, q.Perm (a :: b :: rest) ∧
      mergeStep ns q = some (joined ns a b, rest ++ [ns.length]) := by
  have hq : q ≠ [] := by rintro rfl; simp at h
  obtain ⟨a, ha, hpa⟩ := popMin_some (ns := ns) hq
  have hq1 : q.erase a ≠ [] := by
    intro h0
    have := List.length_erase_of_mem ha
    simp [h0] at this
    omega
  obtain ⟨b, hb, hpb⟩ := popMin_some (ns := ns) hq1
  refine ⟨a, b, (q.erase a).erase b, ?_, by simp [mergeStep, hpa, hpb]⟩
  exact (List.perm_cons_erase ha).trans ((List.perm_cons_erase hb).cons a)

/-- What R55 says of an INTERNAL record: no symbol, two different children below it, their weights summed without wrap. -/
abbrev InnerOk (ns : List Node) (n : Nat) : Prop :=
  (nodeGet ns n).sym = 0 ∧ (nodeGet ns n).left ≠ (nodeGet ns n).right ∧
  (nodeGet ns n).left < n ∧ (nodeGet ns n).right < n ∧
  (nodeGet ns n).weight.toNat =
    (nodeGet ns (nodeGet ns n).left).weight.toNat + (nodeGet ns (nodeGet ns n).right).weight.toNat

/-- The invariant of Merge's loop (R189, R191): the queue holds the roots of a forest over all records, whose weights sum to the
total, and the newest record is a root. -/
structure MergeOk (leaves total : Nat) (ns : List Node) (q : List Nat) : Prop where
  leaves_le : leaves ≤ ns.length
  size : ns.length + q.length = 2 * leaves
  nodup : q.Nodup
  bound : ∀ n ∈ q, n < ns.length
  newest : ns.length - 1 ∈ q
  weights : (q.map (fun n => (nodeGet ns n).weight.toNat)).sum = total
  kinds : ∀ n < ns.length, (nodeGet ns n).kind = if n < leaves then .leaf else .internal
  inner : ∀ n < ns.length, (nodeGet ns n).kind = .internal → InnerOk ns n
  parents : ∀ n < ns.length, (parentsOf ns n).length = if n ∈ q then 0 else 1

/-- The record after the last reads back from a RAM one longer. -/
theorem nodeGet_append_length (ns : List Node) (r : Node) : nodeGet (ns ++ [r]) ns.length = r := by simp [nodeGet]

theorem nodeGet_append_lt {ns : List Node} {n : Nat} (h : n < ns.length) (r : Node) :
    nodeGet (ns ++ [r]) n = nodeGet ns n := nodeGet_prefix (List.prefix_append _ _) h

theorem isParent_iff {ns : List Node} {n p : Nat} :
    isParent ns n p = true ↔
      (nodeGet ns p).kind = .internal ∧ ((nodeGet ns p).left = n ∨ (nodeGet ns p).right = n) := by
  simp [isParent]

/-- An INTERNAL record is one of those held. -/
theorem lt_length_of_internal {ns : List Node} {p : Nat} (h : (nodeGet ns p).kind = .internal) : p < ns.length := by
  by_contra hge
  simp [nodeGet, List.getElem?_eq_none (Nat.le_of_not_lt hge), emptyNode] at h

theorem mem_parentsOf {ns : List Node} {n p : Nat} : p ∈ parentsOf ns n ↔ isParent ns n p = true := by
  simp only [parentsOf, List.mem_filter, List.mem_range, and_iff_right_iff_imp]
  exact fun h => lt_length_of_internal (isParent_iff.1 h).1

/-- A new parent adds itself to the parents of its two children, and leaves every other node's parents. -/
theorem parentsOf_append (ns : List Node) (w : Word) (a b n : Nat) :
    parentsOf (ns ++ [internalNode w a b]) n = parentsOf ns n ++ if a = n ∨ b = n then [ns.length] else [] := by
  have hold : (List.range ns.length).filter (isParent (ns ++ [internalNode w a b]) n) = parentsOf ns n :=
    List.filter_congr fun p hp => by simp only [isParent, nodeGet_append_lt (List.mem_range.1 hp)]
  have hnew : isParent (ns ++ [internalNode w a b]) n ns.length = decide (a = n ∨ b = n) := by
    rw [Bool.eq_iff_iff, isParent_iff, nodeGet_append_length]
    simp [internalNode]
  rw [parentsOf, List.length_append, List.length_singleton, List.range_succ, List.filter_append, hold,
    List.filter_singleton, hnew]
  simp

/-- A node no INTERNAL record can name has no parent: children stand below their parent. -/
theorem parentsOf_length_eq_nil {ns : List Node}
    (h : ∀ n < ns.length, (nodeGet ns n).kind = .internal → InnerOk ns n) : parentsOf ns ns.length = [] := by
  refine List.eq_nil_iff_forall_not_mem.2 fun p hp => ?_
  obtain ⟨hk, hchild⟩ := isParent_iff.1 (mem_parentsOf.1 hp)
  have hlt := lt_length_of_internal hk
  obtain ⟨-, -, hleft, hright, -⟩ := h p hlt hk
  omega

/-- InnerOk speaks only of a record and its children, which a longer RAM keeps. -/
theorem innerOk_append {ns : List Node} {n : Nat} (hn : n < ns.length) (h : InnerOk ns n) (r : Node) :
    InnerOk (ns ++ [r]) n := by
  obtain ⟨hsym, hne, hleft, hright, hw⟩ := h
  simp only [InnerOk, nodeGet_append_lt hn, nodeGet_append_lt (hleft.trans hn), nodeGet_append_lt (hright.trans hn)]
  exact ⟨hsym, hne, hleft, hright, hw⟩

/-! ### A pass of Merge -/

section Join

variable {leaves total : Nat} {ns : List Node} {q rest : List Nat} {a b : Nat}

theorem lt_length_joined {n : Nat} (h : n < (joined ns a b).length) : n < ns.length ∨ n = ns.length := by
  simp at h; omega

/-- The popped indices and the remaining ones are different records of the RAM. -/
theorem MergeOk.popped (h : MergeOk leaves total ns q) (hq : q.Perm (a :: b :: rest)) :
    a ≠ b ∧ a ∉ rest ∧ b ∉ rest ∧ rest.Nodup ∧ a < ns.length ∧ b < ns.length ∧ ∀ n ∈ rest, n < ns.length := by
  have hnodup := hq.nodup_iff.1 h.nodup
  have hbound : ∀ n ∈ a :: b :: rest, n < ns.length := fun n hn => h.bound n (hq.mem_iff.2 hn)
  simp only [List.nodup_cons, List.mem_cons, not_or] at hnodup
  obtain ⟨⟨hab, ha⟩, hb, hrest⟩ := hnodup
  exact ⟨hab, ha, hb, hrest, hbound a (by simp), hbound b (by simp), fun n hn => hbound n (by simp [hn])⟩

/-- The weights of the popped and the remaining roots sum to the total. -/
theorem MergeOk.popped_weights (h : MergeOk leaves total ns q) (hq : q.Perm (a :: b :: rest)) :
    (nodeGet ns a).weight.toNat + (nodeGet ns b).weight.toNat +
      (rest.map (fun n => (nodeGet ns n).weight.toNat)).sum = total := by
  rw [← h.weights, (hq.map _).sum_eq, List.map_cons, List.map_cons, List.sum_cons, List.sum_cons, Nat.add_assoc]

/-- The parent's weight does not wrap (R191). -/
theorem MergeOk.parent_weight (h : MergeOk leaves total ns q) (hq : q.Perm (a :: b :: rest)) (htotal : total < 2 ^ 32) :
    ((nodeGet ns a).weight + (nodeGet ns b).weight).toNat =
      (nodeGet ns a).weight.toNat + (nodeGet ns b).weight.toNat := by
  have := h.popped_weights hq
  rw [BitVec.toNat_add, Nat.mod_eq_of_lt (by omega)]

/-- After the pass the roots' weights still sum to the total. -/
theorem MergeOk.weights_joined (h : MergeOk leaves total ns q) (hq : q.Perm (a :: b :: rest)) (htotal : total < 2 ^ 32) :
    ((rest ++ [ns.length]).map (fun n => (nodeGet (joined ns a b) n).weight.toNat)).sum = total := by
  obtain ⟨-, -, -, -, -, -, hrest⟩ := h.popped hq
  have hkeep : rest.map (fun n => (nodeGet (joined ns a b) n).weight.toNat) =
      rest.map (fun n => (nodeGet ns n).weight.toNat) :=
    List.map_congr_left fun n hn => by rw [nodeGet_append_lt (hrest n hn)]
  have hold := h.popped_weights hq
  rw [List.map_append, hkeep, List.map_singleton, nodeGet_append_length, List.sum_append, List.sum_singleton]
  simp only [internalNode, h.parent_weight hq htotal]
  omega

/-- The new record is an INTERNAL one as R55 has it. -/
theorem MergeOk.innerOk_parent (h : MergeOk leaves total ns q) (hq : q.Perm (a :: b :: rest)) (htotal : total < 2 ^ 32) :
    InnerOk (joined ns a b) ns.length := by
  obtain ⟨hab, -, -, -, ha, hb, -⟩ := h.popped hq
  simp only [InnerOk, nodeGet_append_length]
  simp only [internalNode, nodeGet_append_lt ha, nodeGet_append_lt hb, h.parent_weight hq htotal]
  exact ⟨trivial, hab, ha, hb, trivial⟩

/-- After the pass the popped nodes have the new parent, which has none, and the other nodes' parents are as before. -/
theorem MergeOk.parents_joined (h : MergeOk leaves total ns q) (hq : q.Perm (a :: b :: rest)) {n : Nat}
    (hn : n < (joined ns a b).length) :
    (parentsOf (joined ns a b) n).length = if n ∈ rest ++ [ns.length] then 0 else 1 := by
  obtain ⟨-, harest, hbrest, -, ha, hb, -⟩ := h.popped hq
  rw [parentsOf_append]
  obtain hlt | rfl := lt_length_joined hn
  · have hold := h.parents n hlt
    simp only [hq.mem_iff, List.mem_cons] at hold
    by_cases hna : n = a
    · subst hna; simp [hold, harest, hlt.ne]
    · by_cases hnb : n = b
      · subst hnb; simp [hold, hbrest, hlt.ne]
      · simpa [hna, hnb, Ne.symm hna, Ne.symm hnb, hlt.ne] using hold
  · simp [parentsOf_length_eq_nil h.inner, ha.ne, hb.ne]

/-- Popping two roots and queueing their new parent keeps the loop's invariant. -/
theorem MergeOk.join (h : MergeOk leaves total ns q) (hq : q.Perm (a :: b :: rest)) (htotal : total < 2 ^ 32) :
    MergeOk leaves total (joined ns a b) (rest ++ [ns.length]) := by
  obtain ⟨-, -, -, hrest, -, -, hrest_lt⟩ := h.popped hq
  have hlen : q.length = rest.length + 2 := by simpa using hq.length_eq
  have hsize := h.size
  have hleaves := h.leaves_le
  constructor
  case leaves_le => simp; omega
  case size => simp; omega
  case nodup => simpa [List.nodup_append] using ⟨hrest, fun n hn => (hrest_lt n hn).ne⟩
  case bound => simpa [or_imp, forall_and] using fun n hn => (hrest_lt n hn).trans (Nat.lt_succ_self _)
  case newest => simp
  case weights => exact h.weights_joined hq htotal
  case kinds =>
    intro n hn
    obtain hlt | rfl := lt_length_joined hn
    · rw [nodeGet_append_lt hlt]; exact h.kinds n hlt
    · rw [nodeGet_append_length, if_neg (by omega)]; rfl
  case inner =>
    intro n hn hk
    obtain hlt | rfl := lt_length_joined hn
    · rw [nodeGet_append_lt hlt] at hk
      exact innerOk_append hlt (h.inner n hlt hk) _
    · exact h.innerOk_parent hq htotal
  case parents => exact fun n hn => h.parents_joined hq hn

end Join

/-- Merge's loop keeps its invariant, and ends with one root. -/
theorem mergeLoop_ok {leaves total : Nat} (htotal : total < 2 ^ 32) (fuel : Nat) (ns : List Node) (q : List Nat)
    (h : MergeOk leaves total ns q) (hq : q.length = fuel + 1) :
    ∃ root, MergeOk leaves total (mergeLoop fuel ns q) [root] := by
  induction fuel generalizing ns q with
  | zero =>
    obtain ⟨root, rfl⟩ := List.length_eq_one_iff.1 hq
    exact ⟨root, h⟩
  | succ fuel ih =>
    obtain ⟨a, b, rest, hperm, hstep⟩ := mergeStep_some (ns := ns) (q := q) (by omega)
    have hlen := hperm.length_eq
    simp only [mergeLoop, hstep]
    exact ih _ _ (h.join hperm htotal) (by simp at hlen ⊢; omega)

/-- Before the first pass every leaf is a root. -/
theorem mergeOk_leaves {p : Params} {leaves : List Node} {total : Nat} (h : LeavesOk p leaves total) :
    MergeOk leaves.length total leaves (List.range leaves.length) := by
  obtain ⟨hpos, -, hleaf, -, hsum⟩ := h
  have hkind : ∀ n < leaves.length, (nodeGet leaves n).kind = .leaf := by
    intro n hn
    obtain ⟨heq, -, -⟩ := hleaf leaves[n] (List.getElem_mem hn)
    simp only [nodeGet, List.getElem?_eq_getElem hn, Option.getD_some]
    rw [heq]; rfl
  have hinner : ∀ n, ¬ (nodeGet leaves n).kind = .internal := by
    intro n hk
    rw [hkind n (lt_length_of_internal hk)] at hk
    cases hk
  have hself : (List.range leaves.length).map (nodeGet leaves) = leaves :=
    (nodeSlice_eq_take leaves le_rfl).trans List.take_length
  constructor
  case leaves_le => exact le_rfl
  case size => simp; omega
  case nodup => exact List.nodup_range
  case bound => simp
  case newest => simp; omega
  case weights =>
    rw [hsum]
    conv_rhs => rw [← hself, List.map_map]
    rfl
  case kinds => intro n hn; rw [hkind n hn, if_pos hn]
  case inner => exact fun n _ hk => absurd hk (hinner n)
  case parents =>
    intro n hn
    have hnone : parentsOf leaves n = [] :=
      List.eq_nil_iff_forall_not_mem.2 fun p hp => hinner p (isParent_iff.1 (mem_parentsOf.1 hp)).1
    simp [hnone, hn]

/-- One root over all records is the tree of R55. -/
theorem treeOk_of_mergeOk {leaves total : Nat} {ns : List Node} {root : Nat} (h : MergeOk leaves total ns [root])
    (hL : 2 ≤ leaves) : TreeOk ns leaves := by
  have hsize := h.size
  have hroot : ns.length - 1 = root := by simpa using h.newest
  have hkinds : ∀ n < ns.length, (nodeGet ns n).kind = kindAt leaves n := by
    intro n hn
    rw [h.kinds n hn, kindAt, if_neg (c := leaves = 1 ∧ n = 1) (by omega)]
  simp only [List.length_singleton] at hsize
  refine ⟨by rw [if_neg (by omega)]; omega, fun n hn => hkinds n (List.mem_range.1 hn), fun n hn hk => ?_,
    fun n hn => h.inner n (List.mem_range.1 hn), fun n hn => ?_⟩
  · rw [h.kinds n (List.mem_range.1 hn)] at hk
    split at hk <;> cases hk
  · have hlt := List.mem_range.1 hn
    rw [h.parents n (by omega), if_neg (by simp; omega)]

/-- R190: the leaf, the dummy and the root are the tree of R55 for one leaf. -/
theorem treeOk_singleTree {leaf : Node} (h : leaf.kind = .leaf) : TreeOk (singleTree leaf) 1 := by
  simp [TreeOk, singleTree, parentsOf, isParent, List.range_succ, nodeGet, h, kindAt, dummyNode, internalNode]

/-- BUILD_TREE makes a tree over the loaded leaves (R188). -/
theorem treeOk_builtNodes {s : State} (hlen : s.nodes.length = s.leafCount)
    (h : LeavesOk s.cfg s.nodes s.total.toNat) : TreeOk (builtNodes s) s.leafCount := by
  have hmerge := mergeOk_leaves h
  unfold builtNodes
  by_cases hone : s.leafCount = 1
  · rw [if_pos hone, hone]
    refine treeOk_singleTree ?_
    rw [hmerge.kinds 0 (by omega), if_pos (by omega)]
  · rw [if_neg hone, mergeTree, nodeSlice_eq_take _ hlen.ge, ← hlen, List.take_length]
    have hpos := h.1
    obtain ⟨root, hroot⟩ :=
      mergeLoop_ok s.total.isLt (s.nodes.length - 1) s.nodes (List.range s.nodes.length) hmerge (by simp; omega)
    exact treeOk_of_mergeOk hroot (by omega)

/-- BUILD_TREE's RAM begins with the loaded leaves. -/
theorem take_builtNodes {s : State} (hlen : s.nodes.length = s.leafCount) (hle : s.leafCount ≤ (builtNodes s).length) :
    (builtNodes s).take s.leafCount = s.nodes := by
  calc (builtNodes s).take s.leafCount
      = nodeSlice (builtNodes s) s.leafCount := (nodeSlice_eq_take _ hle).symm
    _ = nodeSlice s.nodes s.leafCount :=
        List.map_congr_left fun n hn => builtNodes_leaf s (List.mem_range.1 hn)
    _ = s.nodes := by rw [nodeSlice_eq_take _ hlen.ge, ← hlen, List.take_length]

/-- A tree over one or more leaves has at least as many records as leaves. -/
theorem treeOk_leaves_le {ns : List Node} {leaves : Nat} (h : TreeOk ns leaves) : leaves ≤ ns.length := by
  rw [h.1]; split <;> omega

theorem contextOk_setTree {s : State} (h : ContextOk s) (hp : s.phase = .loading) :
    ContextOk (setTree (builtNodes s) s) := by
  simp only [ContextOk, hp] at h
  obtain ⟨hlen, -, hleaves, hcc, hct⟩ := h
  have htree := treeOk_builtNodes hlen hleaves
  have hle := treeOk_leaves_le htree
  refine ⟨⟨hle, rfl, ?_, htree⟩, hcc, hct⟩
  simpa only [setTree_nodes, setTree_leafCount, setTree_cfg, setTree_total, take_builtNodes hlen hle] using hleaves

/-! ## GEN_CODES: the walk meets every node once -/

/-- In a tree of R55 an INTERNAL record has its two children below it. -/
theorem treeOk_inner {ns : List Node} {leaves n : Nat} (h : TreeOk ns leaves) (hk : (nodeGet ns n).kind = .internal) :
    InnerOk ns n := by
  obtain ⟨-, -, -, hinner, -⟩ := h
  exact hinner n (List.mem_range.2 (lt_length_of_internal hk)) hk

/-- In a tree a node below the root has one parent. -/
theorem treeOk_parent_unique {ns : List Node} {leaves n p p' : Nat} (h : TreeOk ns leaves) (hn : n < ns.length - 1)
    (hp : isParent ns n p = true) (hp' : isParent ns n p' = true) : p = p' := by
  obtain ⟨-, -, -, -, hone⟩ := h
  obtain ⟨r, hr⟩ := List.length_eq_one_iff.1 (hone n (List.mem_range.2 hn))
  have hmem : ∀ x, isParent ns n x = true → x = r := fun x hx => by
    simpa [hr] using mem_parentsOf.2 hx
  rw [hmem p hp, hmem p' hp']

/-- In a tree a node below the root has a parent above it. -/
theorem treeOk_exists_parent {ns : List Node} {leaves n : Nat} (h : TreeOk ns leaves) (hn : n < ns.length - 1) :
    ∃ p, isParent ns n p = true ∧ n < p ∧ p < ns.length := by
  obtain ⟨-, -, -, -, hone⟩ := id h
  obtain ⟨p, hp⟩ := List.length_eq_one_iff.1 (hone n (List.mem_range.2 hn))
  have hpar : isParent ns n p = true := mem_parentsOf.1 (by simp [hp])
  obtain ⟨hk, hchild⟩ := isParent_iff.1 hpar
  obtain ⟨-, -, hleft, hright, -⟩ := treeOk_inner h hk
  exact ⟨p, hpar, by omega, lt_length_of_internal hk⟩

/-- The invariant of the walk (R212): the popped nodes `seen` and the stacked ones `todo` are different nodes, the root is among
them, and but for the root they are exactly the children of the popped ones. -/
structure WalkOk (ns : List Node) (seen todo : List Nat) : Prop where
  nodup : (seen ++ todo).Nodup
  bound : ∀ n ∈ seen ++ todo, n < ns.length
  root : ns.length - 1 ∈ seen ++ todo
  child_mem : ∀ p ∈ seen, ∀ n, isParent ns n p = true → n ∈ seen ++ todo
  has_parent : ∀ n ∈ seen ++ todo, n = ns.length - 1 ∨ ∃ p ∈ seen, isParent ns n p = true

/-- The walk starts at the root. -/
theorem walkOk_root {ns : List Node} (h : 0 < ns.length) : WalkOk ns [] [ns.length - 1] where
  nodup := by simp
  bound := by simp; omega
  root := by simp
  child_mem := by simp
  has_parent := by simp

/-- Popping a node without children keeps the walk's invariant. -/
theorem walkOk_pop {ns : List Node} {seen todo : List Nat} {n : Nat} (h : WalkOk ns seen (n :: todo))
    (hk : (nodeGet ns n).kind ≠ .internal) : WalkOk ns (n :: seen) todo := by
  have hperm : (n :: seen ++ todo).Perm (seen ++ n :: todo) := List.perm_middle.symm
  constructor
  case nodup => exact hperm.nodup_iff.2 h.nodup
  case bound => exact fun m hm => h.bound m (hperm.mem_iff.1 hm)
  case root => exact hperm.mem_iff.2 h.root
  case child_mem =>
    intro p hp m hpar
    obtain rfl | hp := List.mem_cons.1 hp
    · exact absurd (isParent_iff.1 hpar).1 hk
    · exact hperm.mem_iff.2 (h.child_mem p hp m hpar)
  case has_parent =>
    intro m hm
    obtain hroot | ⟨p, hp, hpar⟩ := h.has_parent m (hperm.mem_iff.1 hm)
    · exact .inl hroot
    · exact .inr ⟨p, List.mem_cons_of_mem _ hp, hpar⟩

/-- In a tree a child of a node still on the stack has not been met: its one parent would have been popped before. -/
theorem walkOk_child_fresh {ns : List Node} {leaves : Nat} (ht : TreeOk ns leaves) {seen todo : List Nat} {n m : Nat}
    (h : WalkOk ns seen (n :: todo)) (hpar : isParent ns m n = true) (hm : m < ns.length - 1) :
    m ∉ seen ++ n :: todo := by
  intro hmem
  obtain hroot | ⟨p, hp, hpar'⟩ := h.has_parent m hmem
  · omega
  · obtain rfl := treeOk_parent_unique ht hm hpar hpar'
    obtain ⟨-, -, hdisjoint⟩ := List.nodup_append.1 h.nodup
    exact hdisjoint n hp n (by simp) rfl

/-- Popping an INTERNAL node and stacking its children keeps the walk's invariant. -/
theorem walkOk_push {ns : List Node} {leaves : Nat} (ht : TreeOk ns leaves) {seen todo : List Nat} {n : Nat}
    (h : WalkOk ns seen (n :: todo)) (hk : (nodeGet ns n).kind = .internal) :
    WalkOk ns (n :: seen) ((nodeGet ns n).left :: (nodeGet ns n).right :: todo) := by
  have hn := lt_length_of_internal hk
  obtain ⟨-, hne, hleft, hright, -⟩ := treeOk_inner ht hk
  have hlfresh := walkOk_child_fresh ht h (m := (nodeGet ns n).left) (isParent_iff.2 ⟨hk, .inl rfl⟩) (by omega)
  have hrfresh := walkOk_child_fresh ht h (m := (nodeGet ns n).right) (isParent_iff.2 ⟨hk, .inr rfl⟩) (by omega)
  have hperm : (n :: seen ++ (nodeGet ns n).left :: (nodeGet ns n).right :: todo).Perm
      ((nodeGet ns n).left :: (nodeGet ns n).right :: (seen ++ n :: todo)) := by
    refine List.perm_middle.trans (.cons _ (List.perm_middle.trans (.cons _ ?_)))
    exact List.perm_middle.symm
  constructor
  case nodup =>
    refine hperm.nodup_iff.2 (List.nodup_cons.2 ⟨?_, List.nodup_cons.2 ⟨hrfresh, h.nodup⟩⟩)
    simpa only [List.mem_cons, not_or] using ⟨hne, hlfresh⟩
  case bound =>
    intro m hm
    obtain rfl | rfl | hm : m = _ ∨ m = _ ∨ m ∈ seen ++ n :: todo := by
      simpa only [List.mem_cons] using hperm.mem_iff.1 hm
    · omega
    · omega
    · exact h.bound m hm
  case root => exact hperm.mem_iff.2 (List.mem_cons_of_mem _ (List.mem_cons_of_mem _ h.root))
  case child_mem =>
    intro p hp m hpar
    rw [hperm.mem_iff, List.mem_cons, List.mem_cons]
    obtain rfl | hp := List.mem_cons.1 hp
    · obtain ⟨-, rfl | rfl⟩ := isParent_iff.1 hpar
      · exact .inl rfl
      · exact .inr (.inl rfl)
    · exact .inr (.inr (h.child_mem p hp m hpar))
  case has_parent =>
    intro m hm
    obtain rfl | rfl | hm : m = _ ∨ m = _ ∨ m ∈ seen ++ n :: todo := by
      simpa only [List.mem_cons] using hperm.mem_iff.1 hm
    · exact .inr ⟨n, by simp, isParent_iff.2 ⟨hk, .inl rfl⟩⟩
    · exact .inr ⟨n, by simp, isParent_iff.2 ⟨hk, .inr rfl⟩⟩
    · obtain hroot | ⟨p, hp, hpar⟩ := h.has_parent m hm
      · exact .inl hroot
      · exact .inr ⟨p, List.mem_cons_of_mem _ hp, hpar⟩

/-- A walk with an empty stack has met every node: the root, and with a parent its children. -/
theorem walkOk_seen_all {ns : List Node} {leaves : Nat} (ht : TreeOk ns leaves) {seen : List Nat} (h : WalkOk ns seen [])
    (n : Nat) (hn : n < ns.length) : n ∈ seen := by
  induction hk : ns.length - n using Nat.strong_induction_on generalizing n with
  | _ k ih =>
    obtain hroot | hlt : n = ns.length - 1 ∨ n < ns.length - 1 := by omega
    · simpa [← hroot] using h.root
    · obtain ⟨p, hpar, hnp, hp⟩ := treeOk_exists_parent ht hlt
      simpa using h.child_mem p (ih (ns.length - p) (by omega) p hp rfl) n hpar

/-- A walk with an empty stack has popped exactly the nodes of the tree. -/
theorem walkOk_seen_perm {ns : List Node} {leaves : Nat} (ht : TreeOk ns leaves) {seen : List Nat}
    (h : WalkOk ns seen []) : seen.Perm (List.range ns.length) := by
  have hnodup : seen.Nodup := by simpa using h.nodup
  refine (List.perm_ext_iff_of_nodup hnodup List.nodup_range).2 fun n => ⟨fun hn => ?_, fun hn => ?_⟩
  · exact List.mem_range.2 (h.bound n (by simpa using hn))
  · exact walkOk_seen_all ht h n (List.mem_range.1 hn)

/-- When as many nodes have been popped as there are, the stack is empty (log 13). -/
theorem walkOk_todo_nil {ns : List Node} {seen todo : List Nat} (h : WalkOk ns seen todo)
    (hlen : seen.length = ns.length) : todo = [] := by
  have hsub := (h.nodup.subperm (l₂ := List.range ns.length) fun n hn => List.mem_range.2 (h.bound n hn)).length_le
  rw [List.length_append, List.length_range] at hsub
  exact List.length_eq_zero_iff.1 (by omega)

/-- Whether node `n` makes an entry of the code table (R212). -/
def makesEntry (ns : List Node) (n : Nat) : Bool := (nodeGet ns n).kind == .leaf

/-- The walk makes one entry for each LEAF not popped yet. -/
theorem walkTree_length {ns : List Node} {leaves : Nat} (ht : TreeOk ns leaves) (fuel : Nat) (stack : List (Nat × Bits))
    (seen : List Nat) (h : WalkOk ns seen (stack.map Prod.fst)) (hfuel : seen.length + fuel = ns.length) :
    (walkTree ns fuel stack).length + seen.countP (makesEntry ns) = (List.range ns.length).countP (makesEntry ns) := by
  induction fuel generalizing stack seen with
  | zero =>
    have hnil := walkOk_todo_nil h hfuel
    rw [hnil] at h
    simpa [walkTree] using (walkOk_seen_perm ht h).countP_eq _
  | succ fuel ih =>
    obtain _ | ⟨⟨n, c⟩, stack⟩ := stack
    · simpa [walkTree] using (walkOk_seen_perm ht h).countP_eq _
    · have hfuel' : (n :: seen).length + fuel = ns.length := by simp; omega
      unfold walkTree
      cases hk : (nodeGet ns n).kind with
      | leaf =>
        have := ih stack (n :: seen) (walkOk_pop h (by simp [hk])) hfuel'
        simp [makesEntry, hk] at this ⊢
        omega
      | internal =>
        have := ih (((nodeGet ns n).left, c ++ [false]) :: ((nodeGet ns n).right, c ++ [true]) :: stack) (n :: seen)
          (walkOk_push ht h hk) hfuel'
        simpa [makesEntry, hk] using this
      | dummy => simpa [makesEntry, hk] using ih stack (n :: seen) (walkOk_pop h (by simp [hk])) hfuel'
      | none => simpa [makesEntry, hk] using ih stack (n :: seen) (walkOk_pop h (by simp [hk])) hfuel'

/-- A tree of R55 has as many LEAF records as leaves. -/
theorem treeOk_countP_makesEntry {ns : List Node} {leaves : Nat} (h : TreeOk ns leaves) :
    (List.range ns.length).countP (makesEntry ns) = leaves := by
  have hle := treeOk_leaves_le h
  obtain ⟨-, hkinds, -, -, -⟩ := h
  have hentry : ∀ n ∈ List.range ns.length, makesEntry ns n = true ↔ n < leaves := by
    intro n hn
    simp only [makesEntry, hkinds n hn, kindAt, beq_iff_eq]
    by_cases hlt : n < leaves
    · simp [hlt]
    · by_cases hdummy : leaves = 1 ∧ n = 1 <;> simp [hlt, hdummy]
  obtain ⟨k, hk⟩ := Nat.exists_eq_add_of_le hle
  rw [List.countP_congr (q := fun n => decide (n < leaves)) (by simpa using hentry), hk, List.range_add,
    List.countP_append, List.countP_eq_length.2 (by simp), List.countP_eq_zero.2 (by simp)]
  simp

/-- The root of a tree of R55 is INTERNAL (R190, R189). -/
theorem treeOk_root_internal {ns : List Node} {leaves : Nat} (h : TreeOk ns leaves) (hL : 1 ≤ leaves) :
    (nodeGet ns (ns.length - 1)).kind = .internal := by
  obtain ⟨hlen, hkinds, -, -, -⟩ := h
  rw [hkinds _ (List.mem_range.2 (by split at hlen <;> omega)), kindAt]
  split at hlen <;> rw [if_neg (by omega), if_neg (by omega)]

/-- The code table has an entry per leaf (R211). -/
theorem codeTable_length {ns : List Node} {leaves : Nat} (h : TreeOk ns leaves) (hL : 1 ≤ leaves) :
    (codeTable ns).length = leaves := by
  have hpos : 0 < ns.length := lt_of_lt_of_le hL (treeOk_leaves_le h)
  have hwalk := walkTree_length h ns.length [(ns.length - 1, [])] [] (walkOk_root hpos) (by simp)
  rw [codeTable, if_neg (by simp [treeOk_root_internal h hL])]
  simpa [treeOk_countP_makesEntry h] using hwalk

theorem contextOk_setCodes {s : State} (h : ContextOk s) (hp : s.phase = .treeBuilt) :
    ContextOk (setCodes (codeTable (treeNodes s)) s) := by
  simp only [ContextOk, hp] at h
  obtain ⟨hbuilt, -, -⟩ := h
  obtain ⟨hle, hcount, hleaves, htree⟩ := hbuilt
  have hnodes : treeNodes s = s.nodes := by
    rw [treeNodes, ← hcount, nodeSlice_eq_take _ le_rfl, List.take_length]
  have hL : 1 ≤ s.leafCount := by simpa [hle] using hleaves.1
  rw [hnodes]
  exact ⟨⟨hle, hcount, hleaves, htree⟩, rfl, rfl, codeTable_length htree hL⟩

/-! ## The context invariant -/

/-- A completion's own writes are outside the context (R161). -/
theorem contextOk_completion {e : Status} {r0 r1 r2 : Word} {s : State} :
    ContextOk (finish e (setRes r0 r1 r2 s)) ↔ ContextOk s := Iff.rfl

theorem contextOk_outLen {v : Word} {s : State} : ContextOk { s with outLen := v } ↔ ContextOk s := Iff.rfl

theorem contextOk_putContainer {c : List Byte} {s : State} : ContextOk (putContainer c s) ↔ ContextOk s := Iff.rfl

theorem contextOk_putSymbols {out : List Word} {s : State} : ContextOk (putSymbols out s) ↔ ContextOk s := Iff.rfl

/-- CLEAR and DECODE leave the empty context (R163, R272). -/
theorem contextOk_clearContext (s : State) : ContextOk (clearContext s) := ⟨rfl, rfl, rfl, rfl, rfl, rfl⟩

/-- Reset leaves the empty context (R351). -/
theorem contextOk_resetWith (p : Params) : ContextOk (State.resetWith p) := ⟨rfl, rfl, rfl, rfl, rfl, rfl⟩

/-- Every command keeps the context invariant. -/
theorem exec_keeps_contextOk {i : Instr} {s t : State} (h : ContextOk s) (he : exec i s = .next t) : ContextOk t := by
  cases i
  case nop => rwa [exec_nop_next he, contextOk_completion]
  case clear =>
    rw [exec_clear_next he, contextOk_completion]
    exact contextOk_clearContext s
  case loadFreq =>
    obtain ⟨_, -, rfl⟩ | ⟨hc, rfl⟩ := exec_loadFreq_next he <;> rw [contextOk_completion]
    · exact h
    · exact contextOk_loadLeaf h hc
  case buildTree =>
    obtain ⟨-, rfl⟩ | ⟨-, -, rfl⟩ | ⟨hp, rfl⟩ := exec_buildTree_next he <;> rw [contextOk_completion]
    · exact h
    · exact h
    · exact contextOk_setTree h hp
  case genCodes =>
    obtain ⟨-, rfl⟩ | ⟨hp, rfl⟩ := exec_genCodes_next he <;> rw [contextOk_completion]
    · exact h
    · exact contextOk_setCodes h hp
  case encode =>
    obtain ⟨_, -, rfl⟩ | ⟨-, rfl⟩ := exec_encode_next he <;> rw [contextOk_completion]
    · rwa [contextOk_outLen]
    · rwa [contextOk_putContainer]
  case decode =>
    obtain ⟨_, -, rfl⟩ | ⟨_, -, rfl⟩ := exec_decode_next he <;> rw [contextOk_completion]
    · exact contextOk_outLen.2 (contextOk_clearContext s)
    · exact contextOk_putSymbols.2 (contextOk_clearContext s)

theorem turnEffect_keeps_contextOk {s t : State} (h : ContextOk s) (ht : TurnEffect s t) : ContextOk t := by
  cases ht
  case hostSide => exact h
  case hostWrite loc v _ _ => rw [writeLoc_block]; exact h
  case assertRst => exact contextOk_resetWith s.cfg
  case releaseRst => exact h
  case command i l _ _ _ he => exact exec_keeps_contextOk h he
  case illegal => exact h

/-- Settles O58: LOAD_FREQ appends a leaf, BUILD_TREE ends Merge with one root, GEN_CODES walks every node once, and no other turn
changes the context but to empty it. -/
theorem stepKeepsContext : Obligations.StepKeepsContext := by
  intro s t hc h
  obtain ⟨turns, script, ht⟩ := step_effect h
  exact ⟨turnEffect_keeps_contextOk (by exact hc) ht, ht.cfg⟩

end Sys2Proof.Proofs

namespace Sys2Proof.Proofs

open Sys2Proof.Machine Sys2Proof.Safety Sys2Proof.Laws

/-! ## Host accesses out of reset -/

/-- An aligned 32-bit read is served (R82). -/
theorem hostMove_read {s : State} {off : Offset} (hr : s.rst = false) (h4 : off.toNat % 4 = 0) :
    hostMove (.read 32 off) s = .next (hostRead (locate off.toNat) s) := by
  simp [hostMove, hr, busRead, busAccepts, h4]

/-- An aligned 32-bit write is served, but into a data window while a command is latched (R82, R357). -/
theorem hostMove_write {s : State} {off : Offset} {v : Word} (hr : s.rst = false) (h4 : off.toNat % 4 = 0)
    (hw : (s.busy.isSome && inDataWindow (locate off.toNat)) = false) :
    hostMove (.write 32 off v) s = .next (writeLoc (locate off.toNat) v s) := by
  simp [hostMove, hr, busWrite, busAccepts, h4, hw]

/-- A read that is no draw returns the true value and uses up no draw. -/
theorem hostRead_true {s : State} {l : Loc} (h : isDrawn s l = false) :
    hostRead l s = { s with reads := readLoc s l :: s.reads } := by
  simp [hostRead, readValue, h]

/-- A drawn read returns the next free value (R358). -/
theorem hostRead_drawn {s : State} {l : Loc} (h : isDrawn s l = true) :
    hostRead l s = { s with reads := Config.busyRead s.draws :: s.reads, draws := s.draws + 1 } := by
  simp [hostRead, readValue, h]

theorem isDrawn_idle {s : State} (h : s.busy = none) (l : Loc) : isDrawn s l = false := by simp [isDrawn, h]

theorem isDrawn_alwaysTrue {s : State} {l : Loc} (h : alwaysTrue l = true) : isDrawn s l = false := by simp [isDrawn, h]

/-- A read of a location that R358 lists, or of a reserved one, gives its true value, busy or not. -/
theorem hostMove_read_alwaysTrue {s : State} {off : Offset} {l : Loc} (hr : s.rst = false) (h4 : off.toNat % 4 = 0)
    (hl : locate off.toNat = l) (ht : alwaysTrue l = true) :
    hostMove (.read 32 off) s = .next { s with reads := readLoc s l :: s.reads } := by
  rw [hostMove_read hr h4, hl, hostRead_true (isDrawn_alwaysTrue ht)]

/-- A read of an idle block gives the true value. -/
theorem hostMove_read_idle {s : State} {off : Offset} {l : Loc} (hr : s.rst = false) (h4 : off.toNat % 4 = 0)
    (hl : locate off.toNat = l) (hb : s.busy = none) :
    hostMove (.read 32 off) s = .next { s with reads := readLoc s l :: s.reads } := by
  rw [hostMove_read hr h4, hl, hostRead_true (isDrawn_idle hb l)]

/-- A read while busy of a location R358 does not list is a draw. -/
theorem hostMove_read_busy {s : State} {off : Offset} {l : Loc} (hr : s.rst = false) (h4 : off.toNat % 4 = 0)
    (hl : locate off.toNat = l) (ht : alwaysTrue l = false) (hb : s.busy.isSome = true) :
    hostMove (.read 32 off) s =
      .next { s with reads := Config.busyRead s.draws :: s.reads, draws := s.draws + 1 } := by
  rw [hostMove_read hr h4, hl, hostRead_drawn (by simp [isDrawn, hb, ht])]

/-- A write outside the data windows is served, busy or not. -/
theorem hostMove_write_outside {s : State} {off : Offset} {l : Loc} {v : Word} (hr : s.rst = false)
    (h4 : off.toNat % 4 = 0) (hl : locate off.toNat = l) (hw : inDataWindow l = false) :
    hostMove (.write 32 off v) s = .next (writeLoc l v s) := by
  rw [hostMove_write hr h4 (by simp [hl, hw]), hl]

/-! ## The registers -/

/-- Settles O45: six locations that R358 lists and no write reaches. -/
theorem constantRegisters : Obligations.ConstantRegisters := by
  intro s v hr
  refine ⟨hostMove_read_alwaysTrue hr rfl rfl rfl, hostMove_read_alwaysTrue hr rfl rfl rfl,
    hostMove_read_alwaysTrue hr rfl rfl rfl, hostMove_read_alwaysTrue hr rfl rfl rfl,
    hostMove_read_alwaysTrue hr rfl rfl rfl, hostMove_read_alwaysTrue hr rfl rfl rfl, fun off hoff => ?_⟩
  fin_cases hoff <;> exact hostMove_write_outside hr rfl rfl rfl

/-- Settles O47: the offsets all lead to the reserved location. -/
theorem reservedSpaceReadsZero : Obligations.ReservedSpaceReadsZero := by
  intro s off v hr h4 hoff
  have hl := locate_reserved h4 hoff
  exact ⟨hostMove_read_alwaysTrue hr h4 hl rfl, hostMove_write_outside hr h4 hl rfl⟩

/-- Settles O49: CTRL is always readable and outside the data windows. -/
theorem ctrlRegister : Obligations.CtrlRegister := by
  intro s v hr
  have hword : ctrlWord s = if s.irqEn = true then 1 else 0 := by
    cases h : s.irqEn <;> simp [ctrlWord, h]
  refine ⟨hostMove_write_outside hr rfl rfl rfl, ?_⟩
  rw [← hword]
  exact hostMove_read_alwaysTrue hr rfl rfl rfl

/-- Settles O50: the registers are always readable and outside the data windows, and every command frames them. -/
theorem argRegisters : Obligations.ArgRegisters := by
  intro s v hr
  refine ⟨hostMove_write_outside hr rfl rfl rfl, hostMove_write_outside hr rfl rfl rfl,
    hostMove_read_alwaysTrue hr rfl rfl rfl, hostMove_read_alwaysTrue hr rfl rfl rfl, fun i t he => ?_⟩
  obtain ⟨-, -, h0, h1⟩ := exec_frame he
  exact ⟨h0, h1⟩

/-- A concatenation as a number. -/
theorem toNat_append_eq_add {m n : Nat} (x : BitVec m) (y : BitVec n) : (x ++ y).toNat = x.toNat * 2 ^ n + y.toNat := by
  rw [BitVec.toNat_append, ← Nat.shiftLeft_add_eq_or_of_lt y.isLt, Nat.shiftLeft_eq]

/-- The fields of STATUS as a number (R34). -/
theorem statusWord_toNat (s : State) :
    (statusWord s).toNat =
      (phaseCode s.phase).toNat * 2 ^ 8 + (statusCode s.err).toNat * 2 ^ 4 + s.cmdDropped.toNat * 2 ^ 2 +
        s.done.toNat * 2 + s.busy.isSome.toNat := by
  simp only [statusWord, toNat_append_eq_add, BitVec.toNat_ofBool, BitVec.toNat_ofNat]
  omega

/-- The flags of STATUS, and its reserved bit. -/
theorem statusWord_flags (s : State) :
    (statusWord s).getLsbD 0 = s.busy.isSome ∧ (statusWord s).getLsbD 1 = s.done ∧
    (statusWord s).getLsbD 2 = s.cmdDropped ∧ (statusWord s).getLsbD 3 = false := by
  simp only [statusWord, BitVec.getLsbD_append]
  simp

/-- The ERR and PHASE fields of STATUS. -/
theorem statusWord_codes (s : State) :
    (statusWord s).toNat / 2 ^ 4 % 2 ^ 4 = (statusCode s.err).toNat ∧
    (statusWord s).toNat / 2 ^ 8 = (phaseCode s.phase).toNat := by
  have herr := (statusCode s.err).isLt
  have hdropped := s.cmdDropped.toNat_lt
  have hdone := s.done.toNat_lt
  have hbusy := s.busy.isSome.toNat_lt
  rw [statusWord_toNat]
  omega

/-- Settles O48, field by field of the STATUS word. -/
theorem statusRegister : Obligations.StatusRegister := by
  intro s v hr
  obtain ⟨hbusy, hdone, hdropped, hzero⟩ := statusWord_flags s
  obtain ⟨herr, hphase⟩ := statusWord_codes s
  refine ⟨⟨statusWord s, hostMove_read_alwaysTrue hr rfl rfl rfl, hbusy, hdone, hdropped, hzero, ?_, ?_⟩, ?_⟩
  · rw [herr]
    cases s.err <;> rfl
  · rw [hphase]
    cases s.phase <;> rfl
  · have hclear : ∀ flag bit : Bool, (flag && !bit) = if bit = true then false else flag := by decide
    rw [hostMove_write_outside (l := .status) hr rfl rfl rfl]
    simp only [writeLoc, writeStatus, hclear]

/-! ## The NODE and CT windows -/

/-- Settles O52: the offset gives the record and the word. -/
theorem nodeWindow : Obligations.NodeWindow := by
  intro s off v hr h4 hlo hhi
  have hl := locate_node hlo hhi
  refine ⟨hostMove_write_outside hr h4 hl rfl, hostMove_read_busy hr h4 hl rfl, fun hb hpast => ?_,
    fun n f hb hoff hn hf => ?_⟩
  · rw [hostMove_read_idle hr h4 hl hb, readLoc, if_neg (by omega)]
  · have hrec : (off.toNat - 0x100000) / 32 = n := by omega
    have hword : (off.toNat - 0x100000) % 32 / 4 = f := by omega
    rw [hrec, hword] at hl
    rw [hostMove_read_idle hr h4 hl hb, readLoc]
    simp only [hn, and_true]
    rcases f with _ | _ | _ | _ | _ | f
    · cases hk : (nodeGet s.nodes n).kind <;> simp [nodeField, kindCode, hk]
    all_goals rfl

/-- R58: code bit 32·w + i is bit 31 − i of BITS_w, and 0 past the code's end. -/
theorem codeWord_getLsbD (bits : Bits) (w : Nat) {i : Nat} (hi : i < 32) :
    (codeWord bits w).getLsbD (31 - i) = (bits[32 * w + i]?).getD false := by
  have hbit := bitsToNat_testBit ((List.range 32).map (fun i => (bits[32 * w + i]?).getD false)) i (by simpa using hi)
  simp only [List.length_map, List.length_range, List.getElem_map, List.getElem_range] at hbit
  rw [codeWord, BitVec.getLsbD_ofNat, hbit]
  simp; omega

/-- Settles O53: the offset gives the record and the word, `codeWord_getLsbD` the code's bits. -/
theorem codeWindow : Obligations.CodeWindow := by
  intro s off v hr h4 hlo hhi
  have hl := locate_code hlo hhi
  refine ⟨hostMove_write_outside hr h4 hl rfl, hostMove_read_busy hr h4 hl rfl, fun hb hpast => ?_,
    fun k f hb hoff hk hf => ?_⟩
  · rw [hostMove_read_idle hr h4 hl hb, readLoc, if_neg (by omega)]
  · have hrec : (off.toNat - 0x200000) / 64 = k := by omega
    have hword : (off.toNat - 0x200000) % 64 / 4 = f := by omega
    rw [hrec, hword] at hl
    refine ⟨_, hostMove_read_idle hr h4 hl hb, fun hpast => ?_, fun hcount e he => ?_⟩
    · rw [readLoc, if_neg (by omega)]
    · rw [readLoc, if_pos ⟨hcount, hk⟩, codeGet, he, Option.getD_some, codeField]
      refine ⟨fun h => if_pos h, fun h => ?_, fun h => ?_, fun h2 h10 i hi => ?_⟩
      · rw [if_neg (by omega), if_pos h]
      · rw [if_neg (by omega), if_neg (by omega), if_neg (by omega)]
      · rw [if_neg (by omega), if_neg (by omega), if_pos h10]
        exact codeWord_getLsbD e.bits (f - 2) hi

/-! ## The reset state -/

/-- Settles O57: nothing is latched, `rst` is released, the memories are unwritten and the context is empty. -/
theorem invariantsHoldAtReset : Obligations.InvariantsHoldAtReset := by
  intro p
  have hlatch : LatchOk (State.resetWith p) := by simp [LatchOk, State.resetWith]
  have hreset : ResetOk (State.resetWith p) := by simp [ResetOk, State.resetWith]
  exact ⟨hlatch, hreset, ⟨rfl, rfl⟩, contextOk_resetWith p, rfl, by decide⟩

end Sys2Proof.Proofs

namespace Sys2Proof.Proofs

open Sys2Proof.Machine Sys2Proof.Safety Sys2Proof.Laws

/-! ## What the five context commands leave unchanged -/

/-- NOP, CLEAR, LOAD_FREQ, BUILD_TREE and GEN_CODES write the context and the completion record, and nothing else (R91). -/
theorem exec_context_frame {i : Instr} {s t : State} (hne : i ≠ .encode) (hnd : i ≠ .decode) (h : exec i s = .next t) :
    t = { s with phase := t.phase, leafCount := t.leafCount, total := t.total, nodeCount := t.nodeCount,
                 nodes := t.nodes, ctCount := t.ctCount, ct := t.ct, res0 := t.res0, res1 := t.res1, res2 := t.res2,
                 err := t.err, done := true, busy := none } := by
  cases i
  case nop => rw [exec_nop_next h]; rfl
  case clear => rw [exec_clear_next h]; rfl
  case loadFreq => obtain ⟨_, -, rfl⟩ | ⟨-, rfl⟩ := exec_loadFreq_next h <;> rfl
  case buildTree => obtain ⟨-, rfl⟩ | ⟨-, -, rfl⟩ | ⟨-, rfl⟩ := exec_buildTree_next h <;> rfl
  case genCodes => obtain ⟨-, rfl⟩ | ⟨-, rfl⟩ := exec_genCodes_next h <;> rfl
  case encode => exact absurd rfl hne
  case decode => exact absurd rfl hnd

/-- Settles O15: the memories by `exec_context_frame`, the context command by command. -/
theorem contextCommandsFrame : Obligations.ContextCommandsFrame := by
  intro i s t hne hnd h
  have hframe := exec_context_frame hne hnd h
  have hsym : t.sym = s.sym := by rw [hframe]
  have hbyt : t.byt = s.byt := by rw [hframe]
  have hepoch : t.epoch = s.epoch := by rw [hframe]
  refine ⟨hframe, symAt_congr hsym hepoch, bytAt_congr hbyt hepoch, ?_, ?_, ?_, ?_⟩
  · rintro rfl
    simp [exec_nop_next h]
  · rintro rfl
    obtain ⟨_, -, rfl⟩ | ⟨-, rfl⟩ := exec_loadFreq_next h
    · simp
    · exact ⟨rfl, rfl, fun n hn => nodeGet_nodePut_lt s.nodes _ hn⟩
  · rintro rfl
    obtain ⟨-, rfl⟩ | ⟨-, -, rfl⟩ | ⟨-, rfl⟩ := exec_buildTree_next h
    · simp
    · simp
    · exact ⟨rfl, rfl, rfl, rfl, fun n hn => builtNodes_leaf s hn⟩
  · rintro rfl
    obtain ⟨-, rfl⟩ | ⟨-, rfl⟩ := exec_genCodes_next h <;> simp

/-! ## What ENCODE and DECODE read and write -/

/-- ENCODE's container is written below its length alone (R247). -/
theorem bytAt_putContainer_ge (c : List Byte) (s : State) {j : Nat} (h : c.length ≤ j) :
    bytAt (putContainer c s) j = bytAt s j := by
  calc bytAt (putContainer c s) j
      = bytAt (bytFill s c) j := bytAt_congr rfl rfl j
    _ = bytAt s j := by rw [bytAt_bytFill, List.getElem?_eq_none h, Option.getD_none]

/-- DECODE's symbols are written below their number alone (R282). -/
theorem symAt_putSymbols_ge (out : List Word) (s : State) {k : Nat} (h : out.length ≤ k) :
    symAt (putSymbols out s) k = symAt s k := by
  calc symAt (putSymbols out s) k
      = symAt (symFill s out) k := symAt_congr rfl rfl k
    _ = symAt s k := by rw [symAt_symFill, List.getElem?_eq_none h, Option.getD_none]

/-- Settles O16: a failing ENCODE leaves both memories, a successful one fills BYT with the container. -/
theorem encodeFrame : Obligations.EncodeFrame := by
  intro s t l hb h
  obtain ⟨_, -, rfl⟩ | ⟨-, rfl⟩ := exec_encode_next h
  · exact ⟨rfl, fun _ => rfl, fun _ _ => rfl, fun _ _ => rfl⟩
  · rw [(operand_latched hb).1]
    exact ⟨rfl, fun _ => rfl, fun hne => absurd rfl hne, fun j hj => bytAt_putContainer_ge _ s hj⟩

/-- Settles O17: a failing DECODE leaves both memories, a successful one fills SYM with the decoded symbols. -/
theorem decodeFrame : Obligations.DecodeFrame := by
  intro s t l hb h
  obtain ⟨_, -, rfl⟩ | ⟨d, hd, rfl⟩ := exec_decode_next h
  · exact ⟨rfl, fun _ => rfl, fun _ _ => rfl, fun _ _ _ _ => rfl⟩
  · refine ⟨rfl, fun _ => rfl, fun hne => absurd rfl hne, fun d' hd' k hk => ?_⟩
    rw [(operand_latched hb).1, hd'] at hd
    obtain rfl : d' = d := by simpa using hd
    exact symAt_putSymbols_ge d'.symbols (clearContext s) hk

/-- ENCODE with a failing check (R241, R316). -/
theorem exec_encode_fails {s : State} {e : Status} (h : encodeCheck s (operand0 s).toNat = some e) :
    exec .encode s = .next (finish e (setRes 0 0 0 { s with outLen := 0 })) := by
  simp [exec, execEncode, h, failOutput, failWith]

/-- ENCODE with every check passed (R241, R247, R248). -/
theorem exec_encode_succeeds {s : State} (h : encodeCheck s (operand0 s).toNat = none) :
    exec .encode s =
      .next (finish .ok (setRes (Word.ofNat (tableText (codeEntries s)).length)
        (Word.ofNat (encodeBits s (operand0 s).toNat).length)
        (Word.ofNat (padOf (encodeBits s (operand0 s).toNat).length))
        (putContainer (container (codeEntries s) (encodeBits s (operand0 s).toNat)) s))) := by
  simp [exec, execEncode, h, complete]

/-- DECODE of a container that a check rejects (R271, R316). -/
theorem exec_decode_fails {s : State} {e : Status} (h : decodeResult s (operand0 s).toNat = .error e) :
    exec .decode s = .next (finish e (setRes 0 0 0 { clearContext s with outLen := 0 })) := by
  simp [exec, execDecode, h, failOutput, failWith]

/-- DECODE of an acceptable container (R271, R282, R283). -/
theorem exec_decode_succeeds {s : State} {d : Decoded} (h : decodeResult s (operand0 s).toNat = .ok d) :
    exec .decode s =
      .next (finish .ok (setRes (Word.ofNat d.symbols.length) (Word.ofNat d.tableLen) (Word.ofNat d.pad)
        (putSymbols d.symbols (clearContext s)))) := by
  simp [exec, execDecode, h, complete]

/-- ENCODE's payload bits depend on SYM through the input slice alone. -/
theorem encodeBits_sym {s : State} {m : List (Nat × Word)} {n : Nat}
    (h : symSlice { s with sym := m } n = symSlice s n) : encodeBits { s with sym := m } n = encodeBits s n :=
  congrArg (codeBits (codeEntries s)) h

/-- ENCODE's checks depend on SYM through the input slice alone. -/
theorem encodeCheck_sym {s : State} {m : List (Nat × Word)} {n : Nat}
    (h : symSlice { s with sym := m } n = symSlice s n) : encodeCheck { s with sym := m } n = encodeCheck s n := by
  have hentries : codeEntries { s with sym := m } = codeEntries s := rfl
  simp only [encodeCheck, h, encodeBits_sym h, hentries]

/-- DECODE's result depends on BYT through the container slice alone. -/
theorem decodeResult_byt {s : State} {m : List Host.Cell} {n : Nat}
    (h : bytSlice { s with byt := m } n = bytSlice s n) : decodeResult { s with byt := m } n = decodeResult s n := by
  simp only [decodeResult, h]

/-- Settles O9: the two runs have one input slice, so one check and one container. -/
theorem encodeReadsOnlyItsInput : Obligations.EncodeReadsOnlyItsInput := by
  intro s t l m hb hsym h
  rw [← (operand_latched hb).1] at hsym
  have hslice := symSlice_congr hsym
  obtain ⟨e, hc, rfl⟩ | ⟨hc, rfl⟩ := exec_encode_next h
  · exact exec_encode_fails ((encodeCheck_sym hslice).trans hc)
  · rw [← encodeBits_sym hslice]
    exact exec_encode_succeeds ((encodeCheck_sym hslice).trans hc)

/-- Settles O10: the two runs have one container slice, so one result. -/
theorem decodeReadsOnlyItsContainer : Obligations.DecodeReadsOnlyItsContainer := by
  intro s t l m hb hbyt h
  rw [← (operand_latched hb).1] at hbyt
  have hresult := decodeResult_byt (bytSlice_congr hbyt)
  obtain ⟨e, hd, rfl⟩ | ⟨d, hd, rfl⟩ := exec_decode_next h
  · exact exec_decode_fails (hresult.trans hd)
  · exact exec_decode_succeeds (hresult.trans hd)

/-! ## The SYM and BYT windows -/

/-- The offset of SYM[k] (R85). -/
theorem offSym_toNat {k : Nat} (h : k < 2 ^ 20) : (offSym k).toNat = 0x400000 + 4 * k := by
  simp [offSym]; omega

/-- The offset of BYT[k] (R86). -/
theorem offByt_toNat {k : Nat} (h : k < 2 ^ 21) : (offByt k).toNat = 0x800000 + 4 * k := by
  simp [offByt]; omega

theorem locate_offSym {k : Nat} (h : k < 2 ^ 20) : locate (offSym k).toNat = .sym k := by
  rw [offSym_toNat h, locate_sym (by omega) (by omega)]
  congr 1; omega

theorem locate_offByt {k : Nat} (h : k < 2 ^ 21) : locate (offByt k).toNat = .byt k := by
  rw [offByt_toNat h, locate_byt (by omega)]
  congr 1; omega

/-- An aligned write to an idle block is served, in the data windows too. -/
theorem hostMove_write_idle {s : State} {off : Offset} {l : Loc} {v : Word} (hr : s.rst = false)
    (h4 : off.toNat % 4 = 0) (hl : locate off.toNat = l) (hb : s.busy = none) :
    hostMove (.write 32 off v) s = .next (writeLoc l v s) := by
  rw [hostMove_write hr h4 (by simp [hb]), hl]

/-- A SYM write changes the SYM list alone. -/
theorem symPut_block (s : State) (i : Nat) (v : Word) : symPut s i v = { s with sym := (symPut s i v).sym } := by
  unfold symPut; split <;> rfl

/-- A BYT write changes the BYT list alone. -/
theorem bytPut_block (s : State) (j : Nat) (v : Byte) : bytPut s j v = { s with byt := (bytPut s j v).byt } := by
  unfold bytPut; split <;> rfl

/-- Settles O54: the offset gives the index, `symAt_symPut` and `bytAt_bytPut` the memory after the write. -/
theorem dataWindows : Obligations.DataWindows := by
  intro s v k hr hb
  refine ⟨fun hk => ?_, fun hk => ?_⟩
  · have h4 : (offSym k).toNat % 4 = 0 := by rw [offSym_toNat hk]; omega
    have hl := locate_offSym hk
    exact ⟨symPut s k v, hostMove_write_idle hr h4 hl hb, symPut_block s k v, fun i => symAt_symPut s k i v,
      hostMove_read_idle hr h4 hl hb⟩
  · have h4 : (offByt k).toNat % 4 = 0 := by rw [offByt_toNat hk]; omega
    have hl := locate_offByt hk
    exact ⟨bytPut s k (v.setWidth 8), hostMove_write_idle hr h4 hl hb, bytPut_block s k _,
      fun j => bytAt_bytPut s k j _, hostMove_read_idle hr h4 hl hb⟩

/-! ## Refused moves -/

/-- An aligned 32-bit write into a data window while a command is latched (R357). -/
abbrev BusyDataWrite (s : State) (m : HostMove) : Prop :=
  s.busy.isSome = true ∧ ∃ off v, m = .write 32 off v ∧ off.toNat % 4 = 0 ∧ 0x400000 ≤ off.toNat

/-- While `rst` is asserted no access is taken (R350). -/
theorem hostMove_access_in_reset {s : State} {m : HostMove} (hr : s.rst = true) (ha : isAccess m = true) :
    hostMove m s = .refused .accessDuringReset := by
  cases m
  case assertRst | releaseRst => cases ha
  all_goals simp [hostMove, hr]

/-- An access that is not 32 bits wide or not aligned gets a bus error (R83). -/
theorem hostMove_ill_formed {s : State} {m : HostMove} (hr : s.rst = false) (hwf : m.wf = false) :
    hostMove m s = .refused .busError := by
  cases m
  case read width off => simp [hostMove, hr, busRead, show busAccepts width off = false from hwf]
  case write width off v => simp [hostMove, hr, busWrite, show busAccepts width off = false from hwf]
  all_goals cases hwf

theorem hostMove_busyDataWrite {s : State} {m : HostMove} (hr : s.rst = false) (hd : BusyDataWrite s m) :
    hostMove m s = .refused .dataWriteWhileBusy := by
  obtain ⟨hbusy, off, v, rfl, h4, hwin⟩ := hd
  simp [hostMove, hr, busWrite, busAccepts, h4, hbusy, (inDataWindow_locate _).2 hwin]

/-- Every other move is answered. -/
theorem hostMove_answered {s : State} {m : HostMove}
    (h : isAccess m = true → s.rst = false ∧ m.wf = true ∧ ¬ BusyDataWrite s m) : ∃ t, hostMove m s = .next t := by
  cases m
  case assertRst | releaseRst => exact ⟨_, rfl⟩
  case wait | check => simp [hostMove, (h rfl).1]
  case read width off =>
    obtain ⟨hr, hwf, -⟩ := h rfl
    obtain ⟨rfl, h4⟩ : width = 32 ∧ off.toNat % 4 = 0 := by simpa [HostMove.wf] using hwf
    exact ⟨_, hostMove_read hr h4⟩
  case write width off v =>
    obtain ⟨hr, hwf, hd⟩ := h rfl
    obtain ⟨rfl, h4⟩ : width = 32 ∧ off.toNat % 4 = 0 := by simpa [HostMove.wf] using hwf
    refine ⟨_, hostMove_write hr h4 (Bool.eq_false_iff.2 fun hw => hd ?_)⟩
    obtain ⟨hbusy, hwin⟩ := Bool.and_eq_true_iff.1 hw
    exact ⟨hbusy, off, v, rfl, h4, (inDataWindow_locate _).1 hwin⟩

/-- A refused move is one of the three kinds, and the refusal has that kind's name. -/
theorem hostMove_refused {s : State} {m : HostMove} {r : Refusal} (h : hostMove m s = .refused r) :
    (s.rst = true ∧ isAccess m = true ∧ r = .accessDuringReset) ∨ (s.rst = false ∧ m.wf = false ∧ r = .busError) ∨
    (s.rst = false ∧ BusyDataWrite s m ∧ r = .dataWriteWhileBusy) := by
  by_cases hreset : s.rst = true ∧ isAccess m = true
  · obtain ⟨hr, ha⟩ := hreset
    rw [hostMove_access_in_reset hr ha] at h
    cases h
    exact .inl ⟨hr, ha, rfl⟩
  by_cases hbus : s.rst = false ∧ m.wf = false
  · obtain ⟨hr, hwf⟩ := hbus
    rw [hostMove_ill_formed hr hwf] at h
    cases h
    exact .inr (.inl ⟨hr, hwf, rfl⟩)
  by_cases hdata : s.rst = false ∧ BusyDataWrite s m
  · obtain ⟨hr, hd⟩ := hdata
    rw [hostMove_busyDataWrite hr hd] at h
    cases h
    exact .inr (.inr ⟨hr, hd, rfl⟩)
  obtain ⟨t, ht⟩ := hostMove_answered (s := s) (m := m) fun ha => by
    have hr : s.rst = false := by simpa [ha] using hreset
    have hwf : m.wf = true := by simpa [hr] using hbus
    exact ⟨hr, hwf, fun hd => hdata ⟨hr, hd⟩⟩
  rw [ht] at h
  cases h

/-- A move that keeps the protocol is no data write while busy (R357). -/
theorem not_busyDataWrite_of_keepsProtocol {s : State} {m : HostMove} (h : keepsProtocol s m = true) :
    ¬ BusyDataWrite s m := by
  rintro ⟨hbusy, off, v, rfl, -, hwin⟩
  simp [keepsProtocol, hbusy, (inDataWindow_locate _).2 hwin] at h

/-- Settles O55: each way to be refused has its name, and every other move is answered. -/
theorem refusedMovesExactly : Obligations.RefusedMovesExactly := by
  intro s m
  refine ⟨fun r => ⟨fun h => ?_, ?_⟩, fun hr hwf hp =>
    hostMove_answered fun _ => ⟨hr, hwf, not_busyDataWrite_of_keepsProtocol hp⟩⟩
  · obtain hreset | hbus | ⟨hr, ⟨hbusy, hwrite⟩, rfl⟩ := hostMove_refused h
    · exact .inl hreset
    · exact .inr (.inl hbus)
    · exact .inr (.inr ⟨hr, hbusy, rfl, hwrite⟩)
  · rintro (⟨hr, ha, rfl⟩ | ⟨hr, hwf, rfl⟩ | ⟨hr, hbusy, rfl, hwrite⟩)
    · exact hostMove_access_in_reset hr ha
    · exact hostMove_ill_formed hr hwf
    · exact hostMove_busyDataWrite hr ⟨hbusy, hwrite⟩

end Sys2Proof.Proofs

namespace Sys2Proof.Proofs

open Sys2Proof.Machine Sys2Proof.Safety Sys2Proof.Laws

/-! ## Command words -/

theorem opField_toNat (w : Word) : (opField w).toNat = w.toNat % 256 := by
  simp [opField, BitVec.extractLsb'_toNat]

/-- R112: RSV is 0 exactly in the words below 0x100. -/
theorem rsvField_eq_zero_iff (w : Word) : rsvField w = 0#24 ↔ w.toNat < 0x100 := by
  have hrsv : (rsvField w).toNat = w.toNat / 256 % 2 ^ 24 := by
    simp [rsvField, BitVec.extractLsb'_toNat, Nat.shiftRight_eq_div_pow]
  rw [← BitVec.toNat_inj, hrsv, BitVec.toNat_zero]
  omega

/-- The map of R114 inverts `opcode`. -/
theorem opcodeMap_eq_some_iff {op : BitVec 8} {i : Instr} : opcodeMap op = some i ↔ op = opcode i := by
  constructor
  · intro h
    unfold opcodeMap at h
    split at h <;> cases h <;> exact BitVec.eq_of_toNat_eq ‹_›
  · rintro rfl
    cases i <;> rfl

/-- R114: the opcodes the map leaves out. -/
theorem opcodeMap_eq_none_iff {op : BitVec 8} : opcodeMap op = none ↔ 0x07 ≤ op.toNat := by
  unfold opcodeMap
  split <;> simp only [reduceCtorEq, true_iff, false_iff, imp_false] at * <;> omega

theorem decode_eq_ok_iff {w : Word} {i : Instr} :
    decode w = .ok i ↔ rsvField w = 0#24 ∧ opcodeMap (opField w) = some i := by
  by_cases hrsv : rsvField w = 0#24 <;> cases hop : opcodeMap (opField w) <;> simp [decode, hrsv, hop]

theorem decode_eq_unknownOpcode_iff {w : Word} :
    decode w = .error .unknownOpcode ↔ rsvField w = 0#24 ∧ opcodeMap (opField w) = none := by
  by_cases hrsv : rsvField w = 0#24 <;> cases hop : opcodeMap (opField w) <;> simp [decode, hrsv, hop]

theorem decode_eq_reservedBits_iff {w : Word} : decode w = .error .reservedBits ↔ rsvField w ≠ 0#24 := by
  by_cases hrsv : rsvField w = 0#24 <;> cases hop : opcodeMap (opField w) <;> simp [decode, hrsv, hop]

/-- R110: RSV is 0 in a command's word, so the word's number is its OP value. -/
theorem encode_toNat (i : Instr) : (encode i).toNat = (opcode i).toNat := by
  cases i <;> rfl

/-- R114: the decoder inverts the encoder, and reads a command from no other word. -/
theorem decode_eq_ok_iff_encode {w : Word} {i : Instr} : decode w = .ok i ↔ w = encode i := by
  rw [decode_eq_ok_iff, rsvField_eq_zero_iff, opcodeMap_eq_some_iff, ← BitVec.toNat_inj, ← BitVec.toNat_inj,
    opField_toNat, encode_toNat]
  have hop := (opcode i).isLt
  omega

/-- Settles O2: `decode_eq_ok_iff_encode`, and each command's word by the opcode table. -/
theorem decodeIffEncode : Obligations.DecodeIffEncode := by
  intro w i
  refine ⟨decode_eq_ok_iff_encode, ?_⟩
  cases i <;> rfl

/-- Settles O3: the refusal names the field that caused it, and the fields cut the words at 0x100 and 0x07. -/
theorem illegalWordsNamed : Obligations.IllegalWordsNamed := by
  intro w
  constructor
  · rw [decode_eq_reservedBits_iff, Ne, rsvField_eq_zero_iff, not_lt]
  · rw [decode_eq_unknownOpcode_iff, rsvField_eq_zero_iff, opcodeMap_eq_none_iff, opField_toNat]
    omega

/-- Settles O1: seven words are the encodings of their commands, four lie in the ranges of `illegalWordsNamed`. -/
theorem opcodeWordsDecode : Obligations.OpcodeWordsDecode := by
  have hcommand (i : Instr) : decode (encode i) = .ok i := decode_eq_ok_iff_encode.2 rfl
  have hreserved {w : Word} (h : 0x100 ≤ w.toNat) : decode w = .error .reservedBits := (illegalWordsNamed w).1.2 h
  have hunknown {w : Word} (h : 0x07 ≤ w.toNat ∧ w.toNat ≤ 0xFF) : decode w = .error .unknownOpcode :=
    (illegalWordsNamed w).2.2 h
  exact ⟨hcommand .nop, hcommand .clear, hcommand .loadFreq, hcommand .buildTree, hcommand .genCodes, hcommand .encode,
    hcommand .decode, hunknown (by decide), hunknown (by decide), hreserved (by decide), hreserved (by decide)⟩

end Sys2Proof.Proofs

namespace Sys2Proof.Proofs

open Sys2Proof.Machine Sys2Proof.Safety Sys2Proof.Laws

/-! ## Decimal spelling -/

/-- R125: `ds` is the shortest decimal spelling of `n`. -/
structure Spells (ds : List Byte) (n : Nat) : Prop where
  nonempty : ds ≠ []
  digits : ds.all isDigit = true
  value : decimalValue ds = n
  noLeadingZero : n ≠ 0 → ds.head? ≠ some 0x30

/-- R126: the value of a digit run by its last digit. -/
theorem decimalValue_concat (ds : List Byte) (d : Byte) :
    decimalValue (ds ++ [d]) = 10 * decimalValue ds + (d.toNat - 0x30) := by
  simp [decimalValue]

theorem spells_digit {d : Nat} (h : d < 10) : Spells [digitByte d] d := by
  obtain ⟨hdigit, hvalue⟩ := digitByte_digit h
  refine ⟨by simp, by simp [hdigit], by simp [decimalValue, hvalue], fun h0 hhead => h0 ?_⟩
  rw [List.head?_cons, Option.some_inj] at hhead
  rw [hhead] at hvalue
  simpa using hvalue

/-- A last digit after the spelling of a positive number. -/
theorem Spells.concat {ds : List Byte} {n d : Nat} (hs : Spells ds n) (hn : n ≠ 0) (hd : d < 10) :
    Spells (ds ++ [digitByte d]) (10 * n + d) := by
  obtain ⟨hdigit, hvalue⟩ := digitByte_digit hd
  refine ⟨by simp, by simp [hs.digits, hdigit], by simp [decimalValue_concat, hs.value, hvalue], fun _ => ?_⟩
  rw [List.head?_append_of_ne_nil _ hs.nonempty]
  exact hs.noLeadingZero hn

theorem decDigits_append (fuel n : Nat) (acc : List Byte) : decDigits fuel n acc = decDigits fuel n [] ++ acc := by
  induction fuel generalizing n acc with
  | zero => rfl
  | succ fuel ih =>
    unfold decDigits
    split
    · rfl
    · rw [ih, ih _ [_], List.append_assoc, List.singleton_append]

/-- With fuel for all its digits, `decDigits` spells its number. -/
theorem spells_decDigits (fuel n : Nat) (h : n < 10 ^ (fuel + 1)) : Spells (decDigits (fuel + 1) n []) n := by
  induction fuel generalizing n with
  | zero =>
    have hn : n < 10 := by simpa using h
    rw [decDigits, if_pos hn]
    exact spells_digit hn
  | succ fuel ih =>
    rw [decDigits]
    split
    · exact spells_digit ‹_›
    · have hfront : Spells (decDigits (fuel + 1) (n / 10) []) (n / 10) := ih _ (by rw [pow_succ] at h; omega)
      have hsnoc := hfront.concat (by omega) (Nat.mod_lt n (by decide))
      rwa [← decDigits_append, Nat.div_add_mod] at hsnoc

/-- R125: the text of a symbol spells it; a 32-bit word has at most ten digits. -/
theorem spells_decText (s : Word) : Spells (decText s) s.toNat :=
  spells_decDigits 9 s.toNat (by have := s.isLt; omega)

/-- Settles O29: `spells_decText`, and the spelling of 0 by evaluation. -/
theorem decimalSpelling : Obligations.DecimalSpelling := by
  intro s
  obtain ⟨hne, hdigits, hvalue, hlead⟩ := spells_decText s
  refine ⟨hne, hdigits, hvalue, ?_, fun hs => hlead fun h0 => hs (BitVec.eq_of_toNat_eq h0)⟩
  rintro rfl
  rfl

end Sys2Proof.Proofs

namespace Sys2Proof.Proofs

open Sys2Proof.Machine Sys2Proof.Safety Sys2Proof.Laws

/-! ## Packing and unpacking -/

@[simp] theorem byteBits_length (b : Byte) : (byteBits b).length = 8 := rfl

theorem byteBits_injective : Function.Injective byteBits := by
  intro a b h
  refine BitVec.eq_of_getLsbD_eq fun i hi => ?_
  have hbit := congrArg (fun l : Bits => l[7 - i]?) h
  have hpos : 7 - (7 - i) = i := by omega
  simpa [byteBits, hpos, show 7 - i < 8 by omega] using hbit

/-- R127: the bits of payload byte `m` are the eight bits of the sequence from bit 8·m on, 0 past its end. -/
theorem byteBits_packByte (bits : Bits) (m : Nat) :
    byteBits (packByte bits m) = (List.range 8).map (fun i => (bits[8 * m + i]?).getD false) := by
  refine List.map_congr_left fun i hi => ?_
  have hi : i < 8 := List.mem_range.1 hi
  have hbit := bitsToNat_testBit ((List.range 8).map (fun i => (bits[8 * m + i]?).getD false)) i (by simpa using hi)
  simp only [List.length_map, List.length_range, List.getElem_map, List.getElem_range] at hbit
  rw [packByte, BitVec.getLsbD_ofNat, hbit]
  simp
  omega

/-- R128: the first payload byte holds the first eight bits, padded with zeros. -/
theorem byteBits_packByte_zero (c : Bits) :
    byteBits (packByte c 0) = c.take 8 ++ List.replicate (8 - c.length) false := by
  rw [byteBits_packByte]
  refine List.ext_getElem (by simp; omega) fun i hi _ => ?_
  have hi : i < 8 := by simpa using hi
  by_cases hlt : i < c.length <;> simp [List.getElem_append, hi, hlt]

theorem packByte_succ (c : Bits) (m : Nat) : packByte c (m + 1) = packByte (c.drop 8) m := by
  have hshift (i : Nat) : 8 * (m + 1) + i = 8 + (8 * m + i) := by omega
  simp [packByte, List.getElem?_drop, hshift]

theorem packBits_nil : packBits [] = [] := rfl

/-- Packing a non-empty sequence makes a byte of its first eight bits and packs the rest. -/
theorem packBits_of_ne_nil {c : Bits} (h : c ≠ []) : packBits c = packByte c 0 :: packBits (c.drop 8) := by
  have hlen : payloadLen c.length = payloadLen (c.drop 8).length + 1 := by
    have := List.length_pos_iff.2 h
    simp [payloadLen]
    omega
  rw [packBits, hlen, List.range_succ_eq_map, List.map_cons, List.map_map]
  simp [packBits, Function.comp_def, packByte_succ]

theorem unpackBits_cons (b : Byte) (p : List Byte) : unpackBits (b :: p) = byteBits b ++ unpackBits p := rfl

/-- R128: what unpacking finds after the packed bits is the padding. -/
theorem unpackBits_packBits (c : Bits) : unpackBits (packBits c) = c ++ List.replicate (padOf c.length) false := by
  by_cases h : c = []
  · subst h
    rfl
  have hrest := unpackBits_packBits (c.drop 8)
  rw [packBits_of_ne_nil h, unpackBits_cons, byteBits_packByte_zero, hrest]
  obtain hlong | hshort := le_or_gt 8 c.length
  · have hpad : padOf (c.drop 8).length = padOf c.length := by
      simp only [padOf, payloadLen, List.length_drop]
      omega
    rw [hpad, Nat.sub_eq_zero_of_le hlong, List.replicate_zero, List.append_nil, ← List.append_assoc,
      List.take_append_drop]
  · have hpad : padOf c.length = 8 - c.length := by
      have := List.length_pos_iff.2 h
      simp only [padOf, payloadLen]
      omega
    rw [List.take_of_length_le hshort.le, List.drop_of_length_le hshort.le, hpad]
    exact List.append_nil _
termination_by c.length
decreasing_by 
  have := List.length_pos_iff.2 h
  simp
  omega

/-- A byte's bits in front of a sequence pack to that byte in front. -/
theorem packBits_byteBits_append (b : Byte) (c : Bits) : packBits (byteBits b ++ c) = b :: packBits c := by
  have hne : byteBits b ++ c ≠ [] := by simp [byteBits]
  have hbyte : packByte (byteBits b ++ c) 0 = b := byteBits_injective <| by
    rw [byteBits_packByte_zero, List.take_left' (byteBits_length b)]
    simp
  rw [packBits_of_ne_nil hne, hbyte, List.drop_left' (byteBits_length b)]

theorem packBits_unpackBits (p : List Byte) : packBits (unpackBits p) = p := by
  induction p with
  | nil => rfl
  | cons b p ih => rw [unpackBits_cons, packBits_byteBits_append, ih]

/-- Settles O35: the two round trips. -/
theorem unpackInvertsPack : Obligations.UnpackInvertsPack :=
  ⟨unpackBits_packBits, packBits_unpackBits⟩

end Sys2Proof.Proofs

namespace Sys2Proof.Proofs

open Sys2Proof.Machine Sys2Proof.Safety Sys2Proof.Laws

/-! ## Lines -/

/-- The model's cut at every LF is the library's. -/
theorem splitLines_eq_splitOn (text : List Byte) : splitLines text = text.splitOn 0x0A := by
  induction text with
  | nil => simp [splitLines]
  | cons b bs ih =>
    rw [splitLines, List.splitOn_cons_eq_if_modifyHead, ih]
    simp only [beq_iff_eq]
    split
    · rfl
    · obtain ⟨l, ls, hls⟩ := List.exists_cons_of_ne_nil (List.splitOn_ne_nil 0x0A bs)
      rw [hls, List.modifyHead_cons]

theorem joinLines_eq_intercalate (ls : List (List Byte)) : joinLines ls = [0x0A].intercalate ls := by
  induction ls using joinLines.induct with
  | case1 => rfl
  | case2 l => simp [joinLines]
  | case3 l l' ls ih => simp [joinLines, ih]

theorem joinLines_splitLines (text : List Byte) : joinLines (splitLines text) = text := by
  rw [splitLines_eq_splitOn, joinLines_eq_intercalate, List.intercalate_splitOn]

theorem splitLines_ne_nil (text : List Byte) : splitLines text ≠ [] := by
  rw [splitLines_eq_splitOn]
  exact List.splitOn_ne_nil _ _

theorem splitLines_joinLines {ls : List (List Byte)} (hls : ls ≠ []) (h : ∀ l ∈ ls, 0x0A ∉ l) :
    splitLines (joinLines ls) = ls := by
  rw [splitLines_eq_splitOn, joinLines_eq_intercalate, List.splitOn_intercalate _ h hls]

/-! ## Entries -/

theorem charsText_all_isBit (code : Bits) : (charsText code).all isBit = true := by
  simp only [charsText, List.all_map, List.all_eq_true]
  rintro (_ | _) - <;> rfl

/-- R126: a code read back from its characters. -/
theorem map_eq_one_charsText (code : Bits) : (charsText code).map (fun b => b == 0x31) = code := by
  rw [charsText, List.map_map]
  refine List.map_id'' ?_ code
  rintro (_ | _) <;> rfl

/-- Characters that are all BIT are the text of the code they spell. -/
theorem charsText_of_all_isBit {text : List Byte} (h : text.all isBit = true) :
    charsText (text.map (fun b => b == 0x31)) = text := by
  rw [charsText, List.map_map]
  refine (List.map_congr_left fun b hb => ?_).trans (List.map_id text)
  have hbit : b = 0x30 ∨ b = 0x31 := by simpa [isBit] using List.all_eq_true.1 h b hb
  rcases hbit with rfl | rfl <;> rfl

/-- R123, R126: `line` is an entry of the grammar, with its value and code. -/
def IsEntry (line : List Byte) (e : Nat × Bits) : Prop :=
  ∃ ds : List Byte, (ds ≠ [] ∧ ds.all isDigit = true) ∧ e.2 ≠ [] ∧ e.1 = decimalValue ds ∧ line = entryText ds e.2

/-- R123: the DIGIT run of an entry ends at its colon. -/
theorem takeWhile_dropWhile_entryText {ds : List Byte} (h : ds.all isDigit = true) (code : Bits) :
    (entryText ds code).takeWhile isDigit = ds ∧ (entryText ds code).dropWhile isDigit = 0x3A :: charsText code := by
  have hds := List.all_eq_true.1 h
  have hcolon : ¬ isDigit 0x3A = true := by decide
  rw [entryText, List.takeWhile_append_of_pos hds, List.dropWhile_append_of_pos hds, List.takeWhile_cons_of_neg hcolon,
    List.dropWhile_cons_of_neg hcolon, List.append_nil]
  exact ⟨rfl, rfl⟩

theorem parseEntry_entryText {ds : List Byte} {code : Bits} (hne : ds ≠ []) (hds : ds.all isDigit = true)
    (hcode : code ≠ []) : parseEntry (entryText ds code) = some (decimalValue ds, code) := by
  obtain ⟨htake, hdrop⟩ := takeWhile_dropWhile_entryText hds code
  have hchars : charsText code ≠ [] := by simpa [charsText] using hcode
  simp only [parseEntry, hdrop, htake]
  rw [if_pos ⟨trivial, hne, hchars, charsText_all_isBit code⟩, map_eq_one_charsText]

/-- `parseEntry` accepts exactly the entries of R123. -/
theorem parseEntry_eq_some_iff {line : List Byte} {e : Nat × Bits} : parseEntry line = some e ↔ IsEntry line e := by
  constructor
  · intro h
    unfold parseEntry at h
    split at h
    · cases h
    · rename_i c code hdrop
      split at h
      · rename_i hcond
        obtain ⟨rfl, hne, hcode, hbits⟩ := hcond
        cases h
        refine ⟨line.takeWhile isDigit, ⟨hne, List.all_takeWhile⟩, by simpa using hcode, rfl, ?_⟩
        rw [entryText, charsText_of_all_isBit hbits, ← hdrop, List.takeWhile_append_dropWhile]
      · cases h
  · obtain ⟨n, code⟩ := e
    rintro ⟨ds, ⟨hne, hds⟩, hcode, rfl, rfl⟩
    exact parseEntry_entryText hne hds hcode

/-- No entry holds an LF. -/
theorem IsEntry.lf_notMem {line : List Byte} {e : Nat × Bits} (h : IsEntry line e) : 0x0A ∉ line := by
  obtain ⟨ds, ⟨-, hds⟩, -, -, rfl⟩ := h
  intro hmem
  rw [entryText, List.mem_append, List.mem_cons] at hmem
  rcases hmem with hdigit | hcolon | hbit
  · exact absurd (List.all_eq_true.1 hds _ hdigit) (by decide)
  · exact absurd hcolon (by decide)
  · exact absurd (List.all_eq_true.1 (charsText_all_isBit e.2) _ hbit) (by decide)

/-! ## Tables -/

theorem parseLines_eq_some_iff {ls : List (List Byte)} {es : List (Nat × Bits)} :
    parseLines ls = some es ↔ List.Forall₂ IsEntry ls es := by
  induction ls generalizing es with
  | nil => simp [parseLines, eq_comm]
  | cons l ls ih =>
    simp only [List.forall₂_cons_left_iff, ← parseEntry_eq_some_iff, ← ih]
    cases he : parseEntry l <;> cases hes : parseLines ls <;> simp [parseLines, he, hes, eq_comm]

/-- A list of entries by their digit runs, as `IsTable` lists them. -/
theorem forall₂_isEntry_iff {ls : List (List Byte)} {es : List (Nat × Bits)} :
    List.Forall₂ IsEntry ls es ↔
      ∃ ds : List (List Byte), ds.length = es.length ∧ (∀ d ∈ ds, d ≠ [] ∧ d.all isDigit = true) ∧
        (∀ e ∈ es, e.2 ≠ []) ∧ es.map (fun e => e.1) = ds.map decimalValue ∧
        ls = List.zipWith (fun d e => entryText d e.2) ds es := by
  constructor
  · intro h
    induction h with
    | nil => exact ⟨[], by simp⟩
    | cons he _ ih =>
      obtain ⟨d, hd, hcode, hvalue, rfl⟩ := he
      obtain ⟨ds, hlen, hds, hcodes, hvalues, rfl⟩ := ih
      exact ⟨d :: ds, congrArg (· + 1) hlen, List.forall_mem_cons.2 ⟨hd, hds⟩, List.forall_mem_cons.2 ⟨hcode, hcodes⟩,
        congrArg₂ _ hvalue hvalues, rfl⟩
  · rintro ⟨ds, hlen, hds, hcodes, hvalues, rfl⟩
    induction ds generalizing es with
    | nil =>
      obtain rfl := List.length_eq_zero_iff.1 hlen.symm
      exact .nil
    | cons d ds ih =>
      cases es with
      | nil => cases hlen
      | cons e es =>
        obtain ⟨hd, hds⟩ := List.forall_mem_cons.1 hds
        obtain ⟨hcode, hcodes⟩ := List.forall_mem_cons.1 hcodes
        obtain ⟨hvalue, hvalues⟩ := List.cons.inj hvalues
        exact .cons ⟨d, hd, hcode, hvalue, rfl⟩ (ih (Nat.succ.inj hlen) hds hcodes hvalues)

/-- R123: a table's text joins the lines of its entries. -/
theorem isTable_iff {text : List Byte} {es : List (Nat × Bits)} :
    IsTable text es ↔ ∃ ls, ls ≠ [] ∧ List.Forall₂ IsEntry ls es ∧ text = joinLines ls := by
  constructor
  · rintro ⟨ds, hlen, hne, hds, hcodes, hvalues, rfl⟩
    have hentries := forall₂_isEntry_iff.2 ⟨ds, hlen, hds, hcodes, hvalues, rfl⟩
    refine ⟨_, fun hnil => hne ?_, hentries, rfl⟩
    rwa [hnil, List.forall₂_nil_left_iff] at hentries
  · rintro ⟨ls, hne, hentries, rfl⟩
    obtain ⟨ds, hlen, hds, hcodes, hvalues, hls⟩ := forall₂_isEntry_iff.1 hentries
    refine ⟨ds, hlen, fun hnil => hne ?_, hds, hcodes, hvalues, by rw [hls]⟩
    rwa [hnil, List.forall₂_nil_right_iff] at hentries

/-- Settles O40: a text is cut into the lines that it joins, and each line is parsed as an entry. -/
theorem parserAcceptsTheGrammar : Obligations.ParserAcceptsTheGrammar := by
  intro text es
  rw [parseTable, parseLines_eq_some_iff, isTable_iff]
  constructor
  · intro h
    exact ⟨_, splitLines_ne_nil text, h, (joinLines_splitLines text).symm⟩
  · rintro ⟨ls, hne, h, rfl⟩
    have hlf : ∀ l ∈ ls, 0x0A ∉ l := ((List.forall₂_and_left _ _).1 (h.imp fun _ _ he => ⟨he.lf_notMem, he⟩)).1
    rwa [splitLines_joinLines hne hlf]

end Sys2Proof.Proofs

namespace Sys2Proof.Proofs

open Sys2Proof.Machine Sys2Proof.Safety Sys2Proof.Laws

/-! ## Turns -/

theorem step_of_core {s : State} (h : nextAgent s = .core) : step s = coreTurn (takeTurn s) := by
  rw [step, h, agentTurn]

theorem step_of_host {s : State} (h : nextAgent s = .host) : step s = hostTurn (takeTurn s) := by
  rw [step, h, agentTurn]

/-- R332: with no command latched the core's turn does nothing, in reset or not. -/
theorem coreTurn_idle {s : State} (hb : s.busy = none) : coreTurn s = .next s := by
  rw [coreTurn, hb, ite_self]

theorem coreTurn_busy {s : State} {l : Latch} (hr : s.rst = false) (hb : s.busy = some l) :
    coreTurn s = completeWord l.cmd s := by
  rw [coreTurn, hr, hb, if_neg Bool.false_ne_true]

theorem completeWord_ok {w : Word} {i : Instr} (h : decode w = .ok i) (s : State) : completeWord w s = exec i s := by
  rw [completeWord, h]

theorem completeWord_error {w : Word} {e : DecodeError} (h : decode w = .error e) (s : State) :
    completeWord w s = completeIllegal s := by
  rw [completeWord, h]

theorem hostTurn_cons {s : State} {m : HostMove} {ms : List HostMove} (h : s.script = m :: ms) :
    hostTurn s = hostMove m { s with script := ms } := by
  rw [hostTurn, h]

theorem hostTurn_nil {s : State} (h : s.script = []) : hostTurn s = .next s := by
  rw [hostTurn, h]

/-- R363: when the run is over, a turn of either agent only comes off the schedule. -/
theorem step_runOver {s : State} (h : runOver s = true) : step s = .next (takeTurn s) := by
  obtain ⟨hscript, hbusy⟩ : s.script = [] ∧ s.busy = none := by simpa [runOver] using h
  cases hagent : nextAgent s with
  | host => rw [step_of_host hagent, hostTurn_nil (s := takeTurn s) hscript]
  | core => rw [step_of_core hagent, coreTurn_idle (s := takeTurn s) hbusy]

/-- Settles O4: the core's turn by what the latched word decodes to, the host's by the head of its script. -/
theorem stepRunsTheNextTurn : Obligations.StepRunsTheNextTurn := by
  intro s
  refine ⟨fun l i hagent hr hb hd => ?_, fun l e hagent hr hb hd => ?_, fun m ms hagent hs => ?_, step_runOver⟩
  · rw [step_of_core hagent, coreTurn_busy (s := takeTurn s) hr hb, completeWord_ok hd, takeTurn]
  · rw [step_of_core hagent, coreTurn_busy (s := takeTurn s) hr hb, completeWord_error hd, takeTurn]
  · rw [step_of_host hagent, hostTurn_cons (s := takeTurn s) hs, takeTurn]

/-! ## Illegal words -/

/-- R112, R114: seven opcodes are in use, and a larger number names no command. -/
theorem decode_error_of_seven_le {w : Word} (h : 0x07 ≤ w.toNat) : ∃ e, decode w = .error e := by
  obtain ⟨hreserved, hunknown⟩ := illegalWordsNamed w
  obtain hlarge | hsmall := le_or_gt 0x100 w.toNat
  · exact ⟨_, hreserved.2 hlarge⟩
  · exact ⟨_, hunknown.2 ⟨h, Nat.le_of_lt_succ hsmall⟩⟩

/-- Settles O5: the word decodes to no command, so the turn is the illegal completion. -/
theorem illegalWordCompletes : Obligations.IllegalWordCompletes := by
  intro s l hr hb hw
  obtain ⟨e, he⟩ := decode_error_of_seven_le hw
  rw [coreTurn_busy hr hb, completeWord_error he, completeIllegal, failWith_eq_next, setRes, finish]

/-! ## CMD writes -/

/-- CMD is outside the data windows: a write to it is an issue, busy or not. -/
theorem hostMove_write_cmd {s : State} (w : Word) (hr : s.rst = false) :
    hostMove (.write 32 0x010 w) s = .next (issue w s) :=
  hostMove_write_outside hr rfl rfl rfl

/-- Settles O6: an issue latches in an idle block and is dropped by a busy one. -/
theorem cmdWriteIssuesOrDrops : Obligations.CmdWriteIssuesOrDrops := by
  intro s w hr
  rw [hostMove_write_cmd w hr]
  constructor
  · intro hb
    rw [issue_idle w hb]
  · intro hb
    obtain ⟨l, hl⟩ := Option.isSome_iff_exists.1 hb
    rw [issue_busy w hl]

/-! ## NOP and CLEAR -/

theorem exec_nop (s : State) : exec .nop s = .next (finish .ok (setRes 0 0 0 s)) := rfl

theorem exec_clear (s : State) : exec .clear s = .next (finish .ok (setRes 0 0 0 (clearContext s))) := rfl

/-- Settles O11: the completion with OK writes only the status, DONE, the latch and RES. -/
theorem nopCompletes : Obligations.NopCompletes := by
  intro s
  rw [exec_nop, setRes, finish]

/-- R54: the NODE window reads 0 from NODE_COUNT on. -/
theorem readLoc_node_of_le {s : State} {n : Nat} (h : s.nodeCount ≤ n) (f : Nat) : readLoc s (.node n f) = 0 :=
  if_neg fun hn => absurd hn.1 h.not_gt

/-- R57: the CT window reads 0 from CT_COUNT on. -/
theorem readLoc_code_of_le {s : State} {k : Nat} (h : s.ctCount ≤ k) (f : Nat) : readLoc s (.code k f) = 0 :=
  if_neg fun hk => absurd hk.1 h.not_gt

/-- Settles O12: the cleared context counts no record, so every index of the windows is past the counts. -/
theorem clearCompletes : Obligations.ClearCompletes := by
  intro s
  refine ⟨_, exec_clear s, rfl, fun n f => ⟨?_, ?_⟩⟩
  · exact readLoc_node_of_le (by simp) f
  · exact readLoc_code_of_le (by simp) f

end Sys2Proof.Proofs

namespace Sys2Proof.Proofs

open Sys2Proof.Machine Sys2Proof.Safety Sys2Proof.Laws

/-! ## LOAD_FREQ: the first failing check, or one more leaf -/

/-- LOAD_FREQ with a failing check (R181, R316). -/
theorem exec_loadFreq_fails {s : State} {e : Status} (h : loadFreqCheck s (operand0 s) (operand1 s) = some e) :
    exec .loadFreq s = .next (finish e (setRes 0 0 0 s)) := by
  simp [exec, execLoadFreq, h, failWith]

/-- LOAD_FREQ with every check passed (R181). -/
theorem exec_loadFreq_succeeds {s : State} (h : loadFreqCheck s (operand0 s) (operand1 s) = none) :
    exec .loadFreq s =
      .next (finish .ok (setRes (Word.ofNat (s.leafCount + 1)) (s.total + operand1 s) 0
        (loadLeaf (operand0 s) (operand1 s) s))) := by
  simp [exec, execLoadFreq, h, complete]

/-- The checks (a) to (f) of R181 pass exactly when each condition holds. -/
theorem loadFreqCheck_eq_none {s : State} {a0 a1 : Word} (hphase : s.phase = .empty ∨ s.phase = .loading)
    (hsym : a0.toNat ≤ s.cfg.symMax) (hcount : a1 ≠ 0)
    (hlast : s.leafCount = 0 ∨ (nodeGet s.nodes (s.leafCount - 1)).sym.toNat < a0.toNat)
    (hroom : s.leafCount ≠ s.cfg.lMax) (hsum : s.total.toNat + a1.toNat ≤ 0xFFFFFFFF) :
    loadFreqCheck s a0 a1 = none := by
  unfold loadFreqCheck
  rw [if_neg (by tauto), if_neg (by omega), if_neg hcount, if_neg (by omega), if_neg hroom, if_neg (by omega)]

/-- Settles O13: every check passes, and TOTAL does not wrap because check (f) bounds the sum. -/
theorem loadFreqAppendsLeaf : Obligations.LoadFreqAppendsLeaf := by
  intro s l hb hphase hsym hcount hlast hroom hsum
  obtain ⟨h0, h1⟩ := operand_latched hb
  have hcheck : loadFreqCheck s (operand0 s) (operand1 s) = none := by
    rw [h0, h1]
    exact loadFreqCheck_eq_none hphase hsym hcount hlast hroom hsum
  have htotal : (s.total + l.a1).toNat = s.total.toNat + l.a1.toNat := by
    rw [BitVec.toNat_add, Nat.mod_eq_of_lt (by omega)]
  have hexec := exec_loadFreq_succeeds hcheck
  rw [h0, h1] at hexec
  exact ⟨_, hexec, rfl, rfl, rfl, rfl, rfl, rfl, htotal, rfl, rfl, rfl, nodeGet_nodePut_self s.nodes _ _,
    fun k hk => nodeGet_nodePut_lt s.nodes _ hk⟩

/-- LOAD_FREQ's status is that of its first failing check, and OK when none fails. -/
theorem exec_loadFreq_err (s : State) :
    ∃ t, exec .loadFreq s = .next t ∧ t.err = (loadFreqCheck s (operand0 s) (operand1 s)).getD .ok := by
  cases h : loadFreqCheck s (operand0 s) (operand1 s) with
  | some e => exact ⟨_, exec_loadFreq_fails h, rfl⟩
  | none => exact ⟨_, exec_loadFreq_succeeds h, rfl⟩

/-- Settles O14: the model's chain of checks, condition by condition. -/
theorem loadFreqFirstFailingCheck : Obligations.LoadFreqFirstFailingCheck := by
  intro s l hb
  obtain ⟨h0, h1⟩ := operand_latched hb
  obtain ⟨t, hexec, herr⟩ := exec_loadFreq_err s
  have hphase : (s.phase ≠ .empty ∧ s.phase ≠ .loading) ↔ (s.phase = .treeBuilt ∨ s.phase = .codesReady) := by
    cases s.phase <;> decide
  have hzero : l.a1 = 0 ↔ l.a1.toNat = 0 := BitVec.toNat_inj.symm
  refine ⟨t, hexec, ?_⟩
  rw [herr, h0, h1]
  simp only [loadFreqCheck, apply_ite (Option.getD · Status.ok), Option.getD_some, Option.getD_none, hphase, hzero,
    Nat.lt_iff_add_one_le (m := 0xFFFFFFFF), Nat.reduceAdd, Nat.reducePow]

/-! ## BUILD_TREE: its three outcomes -/

theorem exec_buildTree_empty {s : State} (h : s.phase = .empty) :
    exec .buildTree s = .next (finish .invalidInput (setRes 0 0 0 s)) := by
  simp [exec, execBuildTree, h, failWith]

theorem exec_buildTree_pastLoading {s : State} (h : s.phase = .treeBuilt ∨ s.phase = .codesReady) :
    exec .buildTree s = .next (finish .sequenceError (setRes 0 0 0 s)) := by
  obtain h | h := h <;> simp [exec, execBuildTree, h, failWith]

theorem exec_buildTree_loading {s : State} (h : s.phase = .loading) :
    exec .buildTree s =
      .next (finish .ok (setRes (Word.ofNat ((builtNodes s).length - 1)) (Word.ofNat (builtNodes s).length)
        (nodeGet (builtNodes s) ((builtNodes s).length - 1)).weight (setTree (builtNodes s) s))) := by
  simp [exec, execBuildTree, h, complete]

/-- Settles O22: the two failures write the completion record alone. -/
theorem buildTreeOutOfPhase : Obligations.BuildTreeOutOfPhase :=
  fun _ => ⟨exec_buildTree_empty, exec_buildTree_pastLoading⟩

/-! ## The tree of a single symbol -/

/-- R215: in the tree of R190 the walk meets the leaf under "0", and the dummy makes no entry. -/
theorem codeTable_singleTree {leaf : Node} (h : leaf.kind = .leaf) :
    codeTable (singleTree leaf) = [{ sym := leaf.sym, bits := [false] }] := by
  simp [codeTable, singleTree, walkTree, nodeGet, internalNode, dummyNode, h]

theorem builtNodes_single {s : State} (h : s.leafCount = 1) : builtNodes s = singleTree (nodeGet s.nodes 0) := if_pos h

/-- Settles O20: BUILD_TREE leaves the RAM of R190, record by record. -/
theorem singleSymbolTree : Obligations.SingleSymbolTree := by
  intro s hp h1
  have hexec := exec_buildTree_loading hp
  rw [builtNodes_single h1] at hexec
  exact ⟨_, hexec, rfl, rfl, rfl, rfl, rfl, codeTable_singleTree⟩

end Sys2Proof.Proofs

namespace Sys2Proof.Proofs

open Sys2Proof.Machine Sys2Proof.Safety Sys2Proof.Laws

/-! ## The priority queue -/

/-- Keys of different indices are different: one is the less (R185). -/
theorem keyLt_of_not_keyLt {ns : List Node} {a b : Nat} (h : ¬ keyLt ns a b = true) (hne : a ≠ b) :
    keyLt ns b a = true := by
  rw [keyLt_iff] at h ⊢
  omega

theorem keyLt_trans {ns : List Node} {a b c : Nat} (hab : keyLt ns a b = true) (hbc : keyLt ns b c = true) :
    keyLt ns a c = true := by
  rw [keyLt_iff] at *
  omega

theorem queueMin_eq_none_iff {ns : List Node} {q : List Nat} : queueMin ns q = none ↔ q = [] := by
  refine ⟨fun h => ?_, fun h => h ▸ rfl⟩
  by_contra hne
  obtain ⟨a, -, ha⟩ := popMin_some (ns := ns) hne
  simp [popMin, h] at ha

/-- The queue's choice has the least key. -/
theorem queueMin_least {ns : List Node} {q : List Nat} {a : Nat} (h : queueMin ns q = some a) :
    ∀ b ∈ q, b ≠ a → keyLt ns a b = true := by
  induction q generalizing a with
  | nil => cases h
  | cons i q ih =>
    intro b hb hne
    unfold queueMin at h
    split at h
    · rename_i hnone
      obtain rfl := queueMin_eq_none_iff.1 hnone
      cases h
      exact absurd (List.mem_singleton.1 hb) hne
    · rename_i j hj
      split at h
      · rename_i hlt
        cases h
        obtain rfl | hb := List.mem_cons.1 hb
        · exact hlt
        · exact ih hj b hb hne
      · rename_i hnlt
        cases h
        have hb : b ∈ q := (List.mem_cons.1 hb).resolve_left hne
        by_cases hbj : b = j
        · exact keyLt_of_not_keyLt (hbj ▸ hnlt) hne
        · have hjb := ih hj b hb hbj
          by_cases hji : j = i
          · exact hji ▸ hjb
          · exact keyLt_trans (keyLt_of_not_keyLt hnlt hji) hjb

theorem popMin_eq_none_iff {ns : List Node} {q : List Nat} : popMin ns q = none ↔ q = [] := by
  rw [← queueMin_eq_none_iff (ns := ns), popMin]
  cases queueMin ns q <;> simp

/-- Pop takes an index of the queue with the least key out of it (R185). -/
theorem popMin_least {ns : List Node} {q q' : List Nat} {a : Nat} (h : popMin ns q = some (a, q')) :
    a ∈ q ∧ q' = q.erase a ∧ ∀ b ∈ q, b ≠ a → keyLt ns a b = true := by
  unfold popMin at h
  split at h
  · cases h
  · cases h
    exact ⟨queueMin_mem ‹_›, rfl, queueMin_least ‹_›⟩

/-- Settles O18: `popMin_least`, with the key order written out. -/
theorem popTakesLeastKey : Obligations.PopTakesLeastKey := by
  intro ns q
  refine ⟨popMin_eq_none_iff, fun a q' h => ?_⟩
  obtain ⟨hmem, herase, hleast⟩ := popMin_least h
  exact ⟨hmem, herase, fun b hb hne => (keyLt_iff ns a b).1 (hleast b hb hne)⟩

/-- A pass of Merge on two or more different indices pops the two with the least keys, the least first (R187, R189). -/
theorem mergeStep_least {ns : List Node} {q : List Nat} (hnodup : q.Nodup) (h : 2 ≤ q.length) :
    ∃ a b rest, q.Perm (a :: b :: rest) ∧ keyLt ns a b = true ∧ (∀ n ∈ rest, keyLt ns b n = true) ∧
      mergeStep ns q = some (joined ns a b, rest ++ [ns.length]) := by
  have hq : q ≠ [] := by rintro rfl; simp at h
  obtain ⟨a, ha, hpa⟩ := popMin_some (ns := ns) hq
  have hlen := List.length_erase_of_mem ha
  have hq1 : q.erase a ≠ [] := fun h0 => by simp [h0] at hlen; omega
  obtain ⟨b, hb, hpb⟩ := popMin_some (ns := ns) hq1
  obtain ⟨-, -, hleasta⟩ := popMin_least hpa
  obtain ⟨-, -, hleastb⟩ := popMin_least hpb
  obtain ⟨hba, hbq⟩ := hnodup.mem_erase_iff.1 hb
  refine ⟨a, b, (q.erase a).erase b, (List.perm_cons_erase ha).trans ((List.perm_cons_erase hb).cons a),
    hleasta b hbq hba, fun n hn => ?_, by simp [mergeStep, hpa, hpb]⟩
  obtain ⟨hnb, hn⟩ := (hnodup.erase a).mem_erase_iff.1 hn
  exact hleastb n hn hnb

/-! ## What each record of Merge joins -/

/-- The queue holds exactly the nodes without a parent, and no record names one not made yet. Unlike `MergeOk` this holds
for all weights. -/
structure RootsOk (ns : List Node) (q : List Nat) : Prop where
  nodup : q.Nodup
  mem_iff : ∀ n, n ∈ q ↔ n < ns.length ∧ parentsOf ns n = []
  future : ∀ n, ns.length ≤ n → parentsOf ns n = []

theorem parentsOf_eq_nil_iff {ns : List Node} {n : Nat} : parentsOf ns n = [] ↔ ∀ k, isParent ns n k = false := by
  simp [List.eq_nil_iff_forall_not_mem, mem_parentsOf]

/-- The children of a new parent are no longer roots. -/
theorem parentsOf_joined_eq_nil {ns : List Node} {a b n : Nat} :
    parentsOf (joined ns a b) n = [] ↔ parentsOf ns n = [] ∧ n ≠ a ∧ n ≠ b := by
  rw [parentsOf_append]
  by_cases h : a = n ∨ b = n
  · simp only [h, if_true, List.append_eq_nil_iff, List.cons_ne_self, and_false, false_iff]
    rintro ⟨-, ha, hb⟩
    exact h.elim (fun h => ha h.symm) (fun h => hb h.symm)
  · simp only [h, if_false, List.append_nil]
    tauto

/-- What is left in the queue after popping `a` and `b`: the other roots. -/
theorem RootsOk.mem_rest {ns : List Node} {q rest : List Nat} {a b : Nat} (h : RootsOk ns q)
    (hq : q.Perm (a :: b :: rest)) (n : Nat) :
    n ∈ rest ↔ (n < ns.length ∧ parentsOf ns n = []) ∧ n ≠ a ∧ n ≠ b := by
  have hnodup := hq.nodup_iff.1 h.nodup
  simp only [List.nodup_cons, List.mem_cons, not_or] at hnodup
  obtain ⟨⟨-, ha⟩, hb, -⟩ := hnodup
  rw [← h.mem_iff, hq.mem_iff, List.mem_cons, List.mem_cons]
  constructor
  · intro hn
    exact ⟨.inr (.inr hn), fun hna => ha (hna ▸ hn), fun hnb => hb (hnb ▸ hn)⟩
  · rintro ⟨hn, hna, hnb⟩
    exact (hn.resolve_left hna).resolve_left hnb

/-- Popping two roots and queueing their parent leaves the roots in the queue. -/
theorem RootsOk.join {ns : List Node} {q rest : List Nat} {a b : Nat} (h : RootsOk ns q) (hq : q.Perm (a :: b :: rest)) :
    RootsOk (joined ns a b) (rest ++ [ns.length]) := by
  obtain ⟨ha, -⟩ := (h.mem_iff a).1 (hq.mem_iff.2 (by simp))
  obtain ⟨hb, -⟩ := (h.mem_iff b).1 (hq.mem_iff.2 (by simp))
  have hlen : (joined ns a b).length = ns.length + 1 := by simp
  constructor
  case nodup =>
    have hrest : rest.Nodup := (hq.nodup_iff.1 h.nodup).of_cons.of_cons
    rw [← List.concat_eq_append]
    refine hrest.concat fun hmem => ?_
    have := ((h.mem_rest hq _).1 hmem).1.1
    omega
  case mem_iff =>
    intro n
    rw [List.mem_append, List.mem_singleton, h.mem_rest hq, parentsOf_joined_eq_nil, hlen]
    constructor
    · rintro (⟨⟨hn, hp⟩, hne⟩ | rfl)
      · exact ⟨by omega, hp, hne⟩
      · exact ⟨by omega, h.future _ le_rfl, by omega, by omega⟩
    · rintro ⟨hn, hp, hne⟩
      obtain hn | rfl : n < ns.length ∨ n = ns.length := by omega
      · exact .inl ⟨⟨hn, hp⟩, hne⟩
      · exact .inr rfl
  case future =>
    intro n hn
    exact parentsOf_joined_eq_nil.2 ⟨h.future n (by omega), by omega, by omega⟩

/-- A held record is one of the list. -/
theorem nodeGet_mem {ns : List Node} {n : Nat} (h : n < ns.length) : nodeGet ns n ∈ ns := by
  simp [nodeGet, h]

/-- Before the first pass every leaf is a root. -/
theorem rootsOk_leaves {ls : List Node} (h : ∀ r ∈ ls, r.kind = .leaf) : RootsOk ls (List.range ls.length) := by
  have hnone : ∀ n, parentsOf ls n = [] := by
    refine fun n => List.eq_nil_iff_forall_not_mem.2 fun p hp => ?_
    have hk := (isParent_iff.1 (mem_parentsOf.1 hp)).1
    rw [h _ (nodeGet_mem (lt_length_of_internal hk))] at hk
    cases hk
  exact ⟨List.nodup_range, fun n => by simp [hnone n], fun n _ => hnone n⟩

/-- R187, R189: record `m` joins the two least keys among the nodes below it without a parent below it, the least left. -/
def JoinsTwoLeast (ns : List Node) (m : Nat) : Prop :=
  ∃ a b, a ≠ b ∧ nodeGet ns m = internalNode ((nodeGet ns a).weight + (nodeGet ns b).weight) a b ∧ a < m ∧ b < m ∧
    (∀ k, k < m → isParent ns a k = false) ∧ (∀ k, k < m → isParent ns b k = false) ∧ keyLt ns a b = true ∧
    ∀ n, n < m → n ≠ a → n ≠ b → (∀ k, k < m → isParent ns n k = false) → keyLt ns b n = true

/-- Whether a held record is a parent is the same in every RAM that extends this one. -/
theorem isParent_prefix {ns ns' : List Node} (h : ns <+: ns') {k : Nat} (hk : k < ns.length) (n : Nat) :
    isParent ns' n k = isParent ns n k := by
  simp only [isParent, nodeGet_prefix h hk]

/-- The key order of held records is the same in every RAM that extends this one. -/
theorem keyLt_prefix {ns ns' : List Node} (h : ns <+: ns') {a b : Nat} (ha : a < ns.length) (hb : b < ns.length) :
    keyLt ns' a b = keyLt ns a b := by
  simp only [keyLt, nodeGet_prefix h ha, nodeGet_prefix h hb]

/-- A root of the RAM has no parent among the first records of any extension, and such a node is a root. -/
theorem RootsOk.mem_iff_prefix {ns ns' : List Node} {q : List Nat} (h : RootsOk ns q) (hp : ns <+: ns') {n : Nat}
    (hn : n < ns.length) : n ∈ q ↔ ∀ k, k < ns.length → isParent ns' n k = false := by
  rw [h.mem_iff, parentsOf_eq_nil_iff]
  constructor
  · rintro ⟨-, hnone⟩ k hk
    rw [isParent_prefix hp hk, hnone]
  · refine fun hnone => ⟨hn, fun k => ?_⟩
    by_cases hk : k < ns.length
    · rw [← isParent_prefix hp hk, hnone k hk]
    · exact Bool.eq_false_iff.2 fun hpar => hk (lt_length_of_internal (isParent_iff.1 hpar).1)

/-- The record a pass appends joins the two least keys, in every RAM the later passes make of it. -/
theorem RootsOk.joinsTwoLeast {ns ns' : List Node} {q rest : List Nat} {a b : Nat} (h : RootsOk ns q)
    (hq : q.Perm (a :: b :: rest)) (hab : keyLt ns a b = true) (hrest : ∀ n ∈ rest, keyLt ns b n = true)
    (hp : joined ns a b <+: ns') : JoinsTwoLeast ns' ns.length := by
  have hp0 : ns <+: ns' := (List.prefix_append ns _).trans hp
  have ha : a ∈ q := hq.mem_iff.2 (by simp)
  have hb : b ∈ q := hq.mem_iff.2 (by simp)
  have halt := ((h.mem_iff a).1 ha).1
  have hblt := ((h.mem_iff b).1 hb).1
  have hne : a ≠ b := by
    rintro rfl
    simpa using hq.nodup_iff.1 h.nodup
  refine ⟨a, b, hne, ?_, halt, hblt, (h.mem_iff_prefix hp0 halt).1 ha, (h.mem_iff_prefix hp0 hblt).1 hb,
    by rw [keyLt_prefix hp0 halt hblt, hab], fun n hn hna hnb hroot => ?_⟩
  · rw [nodeGet_prefix hp (by simp), nodeGet_append_length, nodeGet_prefix hp0 halt, nodeGet_prefix hp0 hblt]
  · have hmem : n ∈ a :: b :: rest := hq.mem_iff.1 ((h.mem_iff_prefix hp0 hn).2 hroot)
    rw [keyLt_prefix hp0 hblt hn]
    exact hrest n (by simpa [hna, hnb] using hmem)

/-- Merge's loop appends one record per pass, and each joins the two least keys. -/
theorem mergeLoop_joinsTwoLeast (fuel : Nat) (ns : List Node) (q : List Nat) (h : RootsOk ns q) (hq : q.length = fuel + 1) :
    (mergeLoop fuel ns q).length = ns.length + fuel ∧
    ∀ m, ns.length ≤ m → m < ns.length + fuel → JoinsTwoLeast (mergeLoop fuel ns q) m := by
  induction fuel generalizing ns q with
  | zero => exact ⟨rfl, fun m _ _ => by omega⟩
  | succ fuel ih =>
    obtain ⟨a, b, rest, hperm, hab, hrest, hstep⟩ := mergeStep_least (ns := ns) h.nodup (by omega)
    have hlen := hperm.length_eq
    simp only [mergeLoop, hstep]
    obtain ⟨hcount, hlater⟩ := ih _ _ (h.join hperm) (by simp at hlen ⊢; omega)
    simp only [List.length_append, List.length_singleton] at hcount hlater
    refine ⟨by omega, fun m hm hlt => ?_⟩
    obtain rfl | hm : m = ns.length ∨ ns.length + 1 ≤ m := by omega
    · exact h.joinsTwoLeast hperm hab hrest (mergeLoop_prefix _ _ _)
    · exact hlater m hm (by omega)

/-- Settles O21: Merge's loop started on the leaves, all of them roots. -/
theorem mergePicksTwoLeast : Obligations.MergePicksTwoLeast := by
  intro ls h2 hleaf
  obtain ⟨hlen, hjoins⟩ :=
    mergeLoop_joinsTwoLeast (ls.length - 1) ls (List.range ls.length) (rootsOk_leaves hleaf) (by simp; omega)
  refine ⟨by rw [mergeTree, hlen]; omega, fun k hk => nodeGet_prefix (mergeLoop_prefix _ _ _) hk, fun m hm hlt => ?_⟩
  exact hjoins m hm (by omega)

/-! ## BUILD_TREE on loaded leaves -/

/-- Merge of two or more loaded leaves ends with one root over all records. -/
theorem mergeTree_ok {p : Params} {leaves : List Node} {total : Nat} (h : LeavesOk p leaves total) (h2 : 2 ≤ leaves.length)
    (htotal : total < 2 ^ 32) : ∃ root, MergeOk leaves.length total (mergeTree leaves) [root] :=
  mergeLoop_ok htotal _ _ _ (mergeOk_leaves h) (by simp; omega)

theorem builtNodes_merge {s : State} (hlen : s.nodes.length = s.leafCount) (h2 : 2 ≤ s.leafCount) :
    builtNodes s = mergeTree s.nodes := by
  rw [builtNodes, if_neg (by omega), nodeSlice_eq_take _ hlen.ge, ← hlen, List.take_length]

/-- R191: the one root left by Merge is the last record, and weighs the total. -/
theorem MergeOk.root_weight {leaves total root : Nat} {ns : List Node} (h : MergeOk leaves total ns [root]) :
    (nodeGet ns (ns.length - 1)).weight.toNat = total := by
  have hroot : ns.length - 1 = root := by simpa using h.newest
  rw [hroot]
  simpa using h.weights

/-- R191: the root of BUILD_TREE's tree weighs TOTAL. -/
theorem builtNodes_root_weight {s : State} (hlen : s.nodes.length = s.leafCount)
    (h : LeavesOk s.cfg s.nodes s.total.toNat) :
    (nodeGet (builtNodes s) ((builtNodes s).length - 1)).weight = s.total := by
  obtain ⟨hpos, -, -, -, hsum⟩ := id h
  apply BitVec.eq_of_toNat_eq
  by_cases h1 : s.leafCount = 1
  · obtain ⟨leaf, hleaf⟩ := List.length_eq_one_iff.1 (hlen.trans h1)
    rw [builtNodes_single h1, hsum, hleaf]
    simp [singleTree, nodeGet, internalNode]
  · rw [builtNodes_merge hlen (by omega)]
    obtain ⟨root, hroot⟩ := mergeTree_ok h (by omega) s.total.isLt
    exact hroot.root_weight

/-- Settles O19: R55 gives the number of records, R191 the root's weight. -/
theorem buildTreeCompletes : Obligations.BuildTreeCompletes := by
  intro s hp hc
  simp only [ContextOk, hp] at hc
  obtain ⟨hlen, -, hleaves, -, -⟩ := hc
  obtain ⟨hsize, -, -, -, -⟩ := treeOk_builtNodes hlen hleaves
  exact ⟨_, exec_buildTree_loading hp, rfl, rfl, rfl, rfl, hsize, rfl, rfl, rfl, builtNodes_root_weight hlen hleaves,
    fun n hn => builtNodes_leaf s hn⟩

end Sys2Proof.Proofs

namespace Sys2Proof.Proofs

open Sys2Proof.Machine Sys2Proof.Safety Sys2Proof.Laws

/-! ## The cost of the code table: the weights of the INTERNAL records -/

/-- What a record adds to Σ depth × weight: the weight under an INTERNAL node is one level deeper for it (R192). -/
def innerWeight (r : Node) : Nat := if r.kind = .internal then r.weight.toNat else 0

/-- A record of a tree that is neither LEAF nor INTERNAL weighs nothing: it is the dummy of R190. -/
theorem treeOk_weight_eq_zero {ns : List Node} {leaves n : Nat} (h : TreeOk ns leaves) (hn : n < ns.length)
    (hleaf : (nodeGet ns n).kind ≠ .leaf) (hinner : (nodeGet ns n).kind ≠ .internal) :
    (nodeGet ns n).weight.toNat = 0 := by
  obtain ⟨-, hkinds, hdummy, -, -⟩ := h
  have hk := hkinds n (List.mem_range.2 hn)
  unfold kindAt at hk
  split_ifs at hk
  · exact absurd hk hleaf
  · rw [hdummy n (List.mem_range.2 hn) hk]; rfl
  · exact absurd hk hinner

/-- The walk's cost: each INTERNAL node not popped yet adds its weight to the depth × weight of the stacked nodes. -/
theorem walkTree_cost {ns : List Node} {leaves : Nat} (ht : TreeOk ns leaves) {weight : Word → Nat}
    (hweight : ∀ n, (nodeGet ns n).kind = .leaf → weight (nodeGet ns n).sym = (nodeGet ns n).weight.toNat)
    (fuel : Nat) (stack : List (Nat × Bits)) (seen : List Nat) (h : WalkOk ns seen (stack.map Prod.fst))
    (hfuel : seen.length + fuel = ns.length) :
    tableCost weight (walkTree ns fuel stack) + (seen.map (fun n => innerWeight (nodeGet ns n))).sum =
      (stack.map (fun p => p.2.length * (nodeGet ns p.1).weight.toNat)).sum +
        ((List.range ns.length).map (fun n => innerWeight (nodeGet ns n))).sum := by
  induction fuel generalizing stack seen with
  | zero =>
    have hnil := walkOk_todo_nil h hfuel
    obtain rfl := List.map_eq_nil_iff.1 hnil
    simpa [walkTree, tableCost] using ((walkOk_seen_perm ht h).map _).sum_eq
  | succ fuel ih =>
    obtain _ | ⟨⟨n, c⟩, stack⟩ := stack
    · simpa [walkTree, tableCost] using ((walkOk_seen_perm ht h).map _).sum_eq
    · have hfuel' : (n :: seen).length + fuel = ns.length := by simp; omega
      have hn : n < ns.length := h.bound n (by simp)
      unfold walkTree
      cases hk : (nodeGet ns n).kind with
      | leaf =>
        have := ih stack (n :: seen) (walkOk_pop h (by simp [hk])) hfuel'
        simp [tableCost, innerWeight, hk, hweight n hk] at this ⊢
        omega
      | internal =>
        obtain ⟨-, -, -, -, hsum⟩ := treeOk_inner ht hk
        have := ih (((nodeGet ns n).left, c ++ [false]) :: ((nodeGet ns n).right, c ++ [true]) :: stack) (n :: seen)
          (walkOk_push ht h hk) hfuel'
        simp [innerWeight, hk, Nat.add_mul] at this ⊢
        rw [hsum, Nat.mul_add]
        omega
      | dummy | none =>
        have hzero := treeOk_weight_eq_zero ht hn (by simp [hk]) (by simp [hk])
        have := ih stack (n :: seen) (walkOk_pop h (by simp [hk])) hfuel'
        simpa [innerWeight, hk, hzero] using this

/-- The records of a RAM, read by index. -/
theorem sum_map_range_nodeGet (ns : List Node) (f : Node → Nat) :
    ((List.range ns.length).map (fun n => f (nodeGet ns n))).sum = (ns.map f).sum := by
  have hself : (List.range ns.length).map (nodeGet ns) = ns :=
    (nodeSlice_eq_take ns le_rfl).trans List.take_length
  conv_rhs => rw [← hself, List.map_map]
  rfl

/-- R192: Σ code length × weight over the code table of a tree is the sum of its INTERNAL records' weights. -/
theorem tableCost_codeTable {ns : List Node} {leaves : Nat} (ht : TreeOk ns leaves) (hL : 1 ≤ leaves) {weight : Word → Nat}
    (hweight : ∀ n, (nodeGet ns n).kind = .leaf → weight (nodeGet ns n).sym = (nodeGet ns n).weight.toNat) :
    tableCost weight (codeTable ns) = (ns.map innerWeight).sum := by
  have hpos : 0 < ns.length := lt_of_lt_of_le hL (treeOk_leaves_le ht)
  have hwalk := walkTree_cost ht hweight ns.length [(ns.length - 1, [])] [] (walkOk_root hpos) (by simp)
  rw [codeTable, if_neg (by simp [treeOk_root_internal ht hL]), ← sum_map_range_nodeGet]
  simpa using hwalk

/-- Among leaves with different symbols the count of a symbol is its leaf's. -/
theorem weightOf_sym {leaves : List Node} (h : leaves.Pairwise (fun a b => a.sym.toNat < b.sym.toNat)) {r : Node}
    (hr : r ∈ leaves) : weightOf leaves r.sym = r.weight.toNat := by
  have hfilter : leaves.filter (fun q => q.sym == r.sym) = [r] := by
    induction leaves with
    | nil => cases hr
    | cons q leaves ih =>
      obtain ⟨hlt, h⟩ := List.pairwise_cons.1 h
      obtain rfl | hr := List.mem_cons.1 hr
      · have hnone : leaves.filter (fun p => p.sym == r.sym) = [] := by
          simp only [List.filter_eq_nil_iff, beq_iff_eq]
          exact fun p hp heq => absurd (heq ▸ hlt p hp) (lt_irrefl _)
        simp [hnone]
      · have hne : q.sym ≠ r.sym := fun heq => absurd (heq ▸ hlt r hr) (lt_irrefl _)
        simpa [hne] using ih h hr
  simp [weightOf, hfilter]

/-! ## Trees as lists of leaves with their depths -/

/-- The leaves of a tree with their depths, left to right, the root at depth `d`. -/
def leafDepths (d : Nat) : LeafTree → List (Nat × Nat)
  | .leaf i => [(i, d)]
  | .node l r => leafDepths (d + 1) l ++ leafDepths (d + 1) r

/-- Σ depth × weight over leaves with depths. -/
def depthCost (w : Nat → Nat) (ls : List (Nat × Nat)) : Nat := (ls.map (fun p => p.2 * w p.1)).sum

/-- The depth of the deepest leaf. -/
def treeHeight : LeafTree → Nat
  | .leaf _ => 0
  | .node l r => max (treeHeight l) (treeHeight r) + 1

/-- The tree with every leaf `i` renamed to `f i`. -/
def relabel (f : Nat → Nat) : LeafTree → LeafTree
  | .leaf i => .leaf (f i)
  | .node l r => .node (relabel f l) (relabel f r)

@[simp] theorem depthCost_nil (w : Nat → Nat) : depthCost w [] = 0 := rfl

@[simp] theorem depthCost_cons (w : Nat → Nat) (i d : Nat) (ls : List (Nat × Nat)) :
    depthCost w ((i, d) :: ls) = d * w i + depthCost w ls := by simp [depthCost]

theorem depthCost_perm {w : Nat → Nat} {ls ls' : List (Nat × Nat)} (h : ls.Perm ls') : depthCost w ls = depthCost w ls' :=
  (h.map _).sum_eq

theorem depthCost_congr {w w' : Nat → Nat} {ls : List (Nat × Nat)} (h : ∀ p ∈ ls, w p.1 = w' p.1) :
    depthCost w ls = depthCost w' ls := by
  rw [depthCost, List.map_congr_left fun p hp => by rw [h p hp]]; rfl

theorem treeCost_eq_depthCost (w : Nat → Nat) (d : Nat) (tree : LeafTree) :
    treeCost w d tree = depthCost w (leafDepths d tree) := by
  induction tree generalizing d with
  | leaf i => simp [treeCost, leafDepths]
  | node l r ihl ihr => simp [treeCost, leafDepths, ihl, ihr, depthCost]

theorem map_fst_leafDepths (d : Nat) (tree : LeafTree) : (leafDepths d tree).map Prod.fst = treeLeaves tree := by
  induction tree generalizing d with
  | leaf i => rfl
  | node l r ihl ihr => simp [leafDepths, treeLeaves, ihl, ihr]

theorem leafDepths_relabel (f : Nat → Nat) (d : Nat) (tree : LeafTree) :
    leafDepths d (relabel f tree) = (leafDepths d tree).map (Prod.map f id) := by
  induction tree generalizing d with
  | leaf i => rfl
  | node l r ihl ihr => simp [leafDepths, relabel, ihl, ihr]

theorem depth_le_treeHeight {d : Nat} {tree : LeafTree} {p : Nat × Nat} (h : p ∈ leafDepths d tree) :
    p.2 ≤ d + treeHeight tree := by
  induction tree generalizing d with
  | leaf i => simp_all [leafDepths]
  | node l r ihl ihr =>
    obtain h | h := List.mem_append.1 h
    · have := ihl h; simp only [treeHeight]; omega
    · have := ihr h; simp only [treeHeight]; omega

/-- Two siblings of the greatest depth, and the tree with their parent made the leaf `m`. -/
theorem exists_deepest_siblings (m : Nat) (tree : LeafTree) (d h : Nat) (hh : treeHeight tree = h + 1) :
    ∃ x y rest tree', (leafDepths d tree).Perm ((x, d + h + 1) :: (y, d + h + 1) :: rest) ∧
      (leafDepths d tree').Perm ((m, d + h) :: rest) := by
  induction tree generalizing d h with
  | leaf i => cases hh
  | node l r ihl ihr =>
    have hmax : max (treeHeight l) (treeHeight r) = h := by simpa [treeHeight] using hh
    obtain _ | h := h
    · obtain ⟨i, rfl⟩ : ∃ i, l = .leaf i := by
        cases l with
        | leaf i => exact ⟨i, rfl⟩
        | node => simp [treeHeight] at hmax
      obtain ⟨j, rfl⟩ : ∃ j, r = .leaf j := by
        cases r with
        | leaf j => exact ⟨j, rfl⟩
        | node => simp [treeHeight] at hmax
      exact ⟨i, j, [], .leaf m, .refl _, .refl _⟩
    · have hdepth : d + 1 + h = d + (h + 1) := by omega
      obtain hl | hr : treeHeight l = h + 1 ∨ treeHeight r = h + 1 := by omega
      · obtain ⟨x, y, rest, tree', hperm, hperm'⟩ := ihl (d + 1) h hl
        rw [hdepth] at hperm hperm'
        exact ⟨x, y, rest ++ leafDepths (d + 1) r, .node tree' r, hperm.append_right _, hperm'.append_right _⟩
      · obtain ⟨x, y, rest, tree', hperm, hperm'⟩ := ihr (d + 1) h hr
        rw [hdepth] at hperm hperm'
        refine ⟨x, y, rest ++ leafDepths (d + 1) l, .node l tree', ?_, ?_⟩
        · exact List.perm_append_comm.trans (hperm.append_right _)
        · exact List.perm_append_comm.trans (hperm'.append_right _)

/-! ## The exchange argument -/

/-- Renaming by an exchange of `a` and `x` leaves a list without them. -/
theorem map_swap_of_notMem {a x : Nat} {ls : List (Nat × Nat)} (ha : a ∉ ls.map Prod.fst) (hx : x ∉ ls.map Prod.fst) :
    ls.map (Prod.map (Equiv.swap a x) id) = ls := by
  refine (List.map_congr_left fun p hp => ?_).trans (List.map_id ls)
  have hmem := List.mem_map_of_mem (f := Prod.fst) hp
  exact Prod.ext (Equiv.swap_apply_of_ne_of_ne (fun h => ha (h ▸ hmem)) (fun h => hx (h ▸ hmem))) rfl

/-- Exchanging a deepest leaf `x` with a lighter leaf `a`: a renaming of the leaves that does not raise the cost. -/
theorem exists_exchange {w : Nat → Nat} {x a D : Nat} {rest : List (Nat × Nat)} (hnodup : (x :: rest.map Prod.fst).Nodup)
    (hdeep : ∀ p ∈ rest, p.2 ≤ D) (ha : a ∈ x :: rest.map Prod.fst) (hw : w a ≤ w x) :
    ∃ f : Nat → Nat, (∀ n ∉ x :: rest.map Prod.fst, f n = n) ∧
      (a :: (rest.map (Prod.map f id)).map Prod.fst).Perm (x :: rest.map Prod.fst) ∧
      depthCost w ((a, D) :: rest.map (Prod.map f id)) ≤ depthCost w ((x, D) :: rest) := by
  refine ⟨Equiv.swap a x, fun n hn => Equiv.swap_apply_of_ne_of_ne (fun h => hn (h ▸ ha)) fun h => hn (by simp [h]), ?_⟩
  obtain rfl | ha := List.mem_cons.1 ha
  · simp
  obtain ⟨e, hmem⟩ : ∃ e, (a, e) ∈ rest := by simpa using ha
  obtain ⟨rest', hperm⟩ : ∃ rest', rest.Perm ((a, e) :: rest') := ⟨_, List.perm_cons_erase hmem⟩
  have hlabels : (x :: rest.map Prod.fst).Perm (x :: a :: rest'.map Prod.fst) := (hperm.map Prod.fst).cons x
  obtain ⟨hx, hrest⟩ := List.nodup_cons.1 (hlabels.nodup_iff.1 hnodup)
  have hmapped : (rest.map (Prod.map (Equiv.swap a x) id)).Perm ((x, e) :: rest') := by
    have hfixed := map_swap_of_notMem (List.nodup_cons.1 hrest).1 (fun h => hx (List.mem_cons_of_mem _ h))
    simpa [hfixed] using hperm.map (Prod.map (Equiv.swap a x) id)
  constructor
  · exact ((hmapped.map Prod.fst).cons a).trans ((List.Perm.swap x a _).trans hlabels.symm)
  · have hdepth : e ≤ D := hdeep (a, e) hmem
    have hexchange := mul_add_mul_le_mul_add_mul' hdepth hw
    rw [depthCost_perm (hmapped.cons _), depthCost_perm (hperm.cons _)]
    simp only [depthCost_cons]
    omega

/-- Exchanging two deepest leaves `x` and `y` with the two lightest leaves `a` and `b`. -/
theorem exists_double_exchange {w : Nat → Nat} {x y a b D : Nat} {rest : List (Nat × Nat)} {others : List Nat}
    (hlabels : (x :: y :: rest.map Prod.fst).Perm (a :: b :: others)) (hnodup : (a :: b :: others).Nodup)
    (hdeep : ∀ p ∈ rest, p.2 ≤ D) (hab : w a ≤ w b) (hleast : ∀ n ∈ others, w b ≤ w n) :
    ∃ f : Nat → Nat, (∀ n ∉ a :: b :: others, f n = n) ∧ ((rest.map (Prod.map f id)).map Prod.fst).Perm others ∧
      depthCost w ((a, D) :: (b, D) :: rest.map (Prod.map f id)) ≤ depthCost w ((x, D) :: (y, D) :: rest) := by
  have hleastb : ∀ n ∈ b :: others, w b ≤ w n := by simpa using hleast
  have hleasta : ∀ n ∈ a :: b :: others, w a ≤ w n := by simpa using ⟨hab, fun n hn => hab.trans (hleast n hn)⟩
  obtain ⟨f, hfix, hperm, hcost⟩ := exists_exchange (w := w) (x := x) (a := a) (D := D) (rest := (y, D) :: rest)
    (hlabels.nodup_iff.2 hnodup) (by simpa using hdeep) (hlabels.mem_iff.2 (by simp))
    (hleasta x (hlabels.mem_iff.1 (by simp)))
  have hremaining := (hperm.trans hlabels).cons_inv
  obtain ⟨g, hgfix, hgperm, hgcost⟩ := exists_exchange (w := w) (x := f y) (a := b) (D := D)
    (rest := rest.map (Prod.map f id)) (hremaining.nodup_iff.2 hnodup.of_cons) (List.forall_mem_map.2 hdeep)
    (hremaining.mem_iff.2 (by simp)) (hleastb _ (hremaining.mem_iff.1 (by simp)))
  have hcomp : (rest.map (Prod.map f id)).map (Prod.map g id) = rest.map (Prod.map (g ∘ f) id) := List.map_map
  rw [hcomp] at hgperm hgcost
  refine ⟨g ∘ f, fun n hn => ?_, (hgperm.trans hremaining).cons_inv, ?_⟩
  · have hfn : f n = n := hfix n fun h => hn (hlabels.mem_iff.1 h)
    rw [Function.comp_apply, hfn]
    exact hgfix n fun h => hn (List.mem_cons_of_mem _ (hremaining.mem_iff.1 h))
  · simp only [List.map_cons, Prod.map_apply, id_eq, depthCost_cons] at hcost hgcost ⊢
    omega

/-- R192's exchange: for the two lightest leaves `a` and `b` some tree with their parent `m` as a leaf costs less by their
weights. -/
theorem exists_tree_joined {w w' : Nat → Nat} {tree : LeafTree} {a b m : Nat} {others : List Nat}
    (hleaves : (treeLeaves tree).Perm (a :: b :: others)) (hnodup : (a :: b :: others).Nodup) (hm : m ∉ a :: b :: others)
    (hab : w a ≤ w b) (hleast : ∀ n ∈ others, w b ≤ w n) (hparent : w' m = w a + w b)
    (hothers : ∀ n ∈ others, w' n = w n) :
    ∃ tree', (treeLeaves tree').Perm (others ++ [m]) ∧ treeCost w' 0 tree' + w' m ≤ treeCost w 0 tree := by
  obtain ⟨h, hh⟩ : ∃ h, treeHeight tree = h + 1 := by
    cases tree with
    | leaf i => simpa [treeLeaves] using hleaves.length_eq
    | node l r => exact ⟨_, rfl⟩
  obtain ⟨x, y, rest, tree', hperm, hperm'⟩ := exists_deepest_siblings m tree 0 h hh
  rw [Nat.zero_add] at hperm hperm'
  have hlabels : (x :: y :: rest.map Prod.fst).Perm (a :: b :: others) := by
    rw [← map_fst_leafDepths 0] at hleaves
    exact (hperm.map Prod.fst).symm.trans hleaves
  have hdeep : ∀ p ∈ rest, p.2 ≤ h + 1 := fun p hp => by
    have := depth_le_treeHeight (hperm.mem_iff.2 (List.mem_cons_of_mem _ (List.mem_cons_of_mem _ hp)))
    omega
  obtain ⟨f, hfix, hnames, hcost⟩ := exists_double_exchange hlabels hnodup hdeep hab hleast
  have hdepths : (leafDepths 0 (relabel f tree')).Perm ((m, h) :: rest.map (Prod.map f id)) := by
    rw [leafDepths_relabel]
    simpa [hfix m hm] using hperm'.map (Prod.map f id)
  refine ⟨relabel f tree', ?_, ?_⟩
  · rw [← map_fst_leafDepths 0]
    exact (hdepths.map Prod.fst).trans ((hnames.cons m).trans (List.perm_append_singleton m others).symm)
  · have hsame : depthCost w' (rest.map (Prod.map f id)) = depthCost w (rest.map (Prod.map f id)) :=
      depthCost_congr fun p hp => hothers _ (hnames.mem_iff.1 (List.mem_map_of_mem hp))
    rw [treeCost_eq_depthCost, treeCost_eq_depthCost, depthCost_perm hdepths, depthCost_perm hperm, depthCost_cons, hsame,
      hparent]
    simp only [depthCost_cons, Nat.mul_add, Nat.add_mul, Nat.one_mul] at hcost ⊢
    omega

/-! ## Merge is optimal -/

/-- The key order respects the weights. -/
theorem weight_le_of_keyLt {ns : List Node} {a b : Nat} (h : keyLt ns a b = true) :
    (nodeGet ns a).weight.toNat ≤ (nodeGet ns b).weight.toNat := by
  rw [keyLt_iff] at h
  omega

/-- The INTERNAL records Merge's loop adds weigh together at most the cost of any tree over the queued roots. -/
theorem mergeLoop_optimal {leaves total : Nat} (htotal : total < 2 ^ 32) (fuel : Nat) (ns : List Node) (q : List Nat)
    (h : MergeOk leaves total ns q) (hq : q.length = fuel + 1) (tree : LeafTree) (htree : (treeLeaves tree).Perm q) :
    ((mergeLoop fuel ns q).map innerWeight).sum ≤
      (ns.map innerWeight).sum + treeCost (fun n => (nodeGet ns n).weight.toNat) 0 tree := by
  induction fuel generalizing ns q tree with
  | zero => exact Nat.le_add_right _ _
  | succ fuel ih =>
    obtain ⟨a, b, rest, hperm, hab, hrest, hstep⟩ := mergeStep_least (ns := ns) h.nodup (by omega)
    have hlen := hperm.length_eq
    have hbound : ∀ n ∈ a :: b :: rest, n < ns.length := fun n hn => h.bound n (hperm.mem_iff.2 hn)
    have hparent : (nodeGet (joined ns a b) ns.length).weight.toNat =
        (nodeGet ns a).weight.toNat + (nodeGet ns b).weight.toNat := by
      rw [nodeGet_append_length, internalNode, h.parent_weight hperm htotal]
    obtain ⟨tree', hleaves', hcost⟩ := exists_tree_joined (w := fun n => (nodeGet ns n).weight.toNat)
      (w' := fun n => (nodeGet (joined ns a b) n).weight.toNat) (m := ns.length) (htree.trans hperm)
      (hperm.nodup_iff.1 h.nodup) (fun hm => lt_irrefl _ (hbound _ hm)) (weight_le_of_keyLt hab)
      (fun n hn => weight_le_of_keyLt (hrest n hn)) hparent
      (fun n hn => by rw [nodeGet_append_lt (hbound n (by simp [hn]))])
    have hlater := ih _ _ (h.join hperm htotal) (by simp at hlen ⊢; omega) tree' hleaves'
    have hsum : ((joined ns a b).map innerWeight).sum =
        (ns.map innerWeight).sum + (nodeGet (joined ns a b) ns.length).weight.toNat := by
      rw [nodeGet_append_length, List.map_append, List.sum_append]
      simp [innerWeight, internalNode]
    simp only [mergeLoop, hstep]
    omega

/-- Loaded leaves hold no INTERNAL record. -/
theorem sum_innerWeight_leaves {p : Params} {leaves : List Node} {total : Nat} (h : LeavesOk p leaves total) :
    (leaves.map innerWeight).sum = 0 := by
  obtain ⟨-, -, hleaf, -, -⟩ := h
  simp only [List.sum_eq_zero_iff, List.mem_map]
  rintro _ ⟨r, hr, rfl⟩
  obtain ⟨heq, -, -⟩ := hleaf r hr
  rw [innerWeight, heq]
  rfl

/-- In BUILD_TREE's tree a LEAF's weight is the count of its symbol among the loaded leaves. -/
theorem weightOf_builtNodes {s : State} (hlen : s.nodes.length = s.leafCount)
    (h : LeavesOk s.cfg s.nodes s.total.toNat) {n : Nat} (hn : n < s.leafCount) :
    weightOf s.nodes (nodeGet (builtNodes s) n).sym = (nodeGet (builtNodes s) n).weight.toNat := by
  obtain ⟨-, -, -, hasc, -⟩ := h
  rw [builtNodes_leaf s hn]
  exact weightOf_sym hasc (nodeGet_mem (hlen ▸ hn))

/-- A LEAF record of a tree is one of its first `leaves` records. -/
theorem treeOk_leaf_lt {ns : List Node} {leaves n : Nat} (h : TreeOk ns leaves) (hk : (nodeGet ns n).kind = .leaf) :
    n < leaves := by
  have hn : n < ns.length := by
    by_contra hge
    simp [nodeGet, List.getElem?_eq_none (Nat.le_of_not_lt hge), emptyNode] at hk
  obtain ⟨-, hkinds, -, -, -⟩ := h
  rw [hkinds n (List.mem_range.2 hn), kindAt] at hk
  split_ifs at hk
  assumption

/-- Settles O23: the table costs what the INTERNAL records weigh, and Merge's exchange argument bounds that. -/
theorem treeIsOptimal : Obligations.TreeIsOptimal := by
  intro s t hp hc h2 hexec tree htree
  simp only [ContextOk, hp] at hc
  obtain ⟨hlen, -, hleaves, -, -⟩ := hc
  have hok := treeOk_builtNodes hlen hleaves
  rw [exec_buildTree_loading hp] at hexec
  cases hexec
  calc tableCost (weightOf s.nodes) (codeTable (builtNodes s))
      = ((builtNodes s).map innerWeight).sum :=
        tableCost_codeTable hok (by omega) fun n hk => weightOf_builtNodes hlen hleaves (treeOk_leaf_lt hok hk)
    _ = ((mergeTree s.nodes).map innerWeight).sum := by rw [builtNodes_merge hlen h2]
    _ ≤ (s.nodes.map innerWeight).sum + treeCost (fun n => (nodeGet s.nodes n).weight.toNat) 0 tree :=
        mergeLoop_optimal s.total.isLt _ _ _ (mergeOk_leaves hleaves) (by simp; omega) tree (hlen ▸ htree)
    _ = treeCost (fun n => (nodeGet s.nodes n).weight.toNat) 0 tree := by
        rw [sum_innerWeight_leaves hleaves, Nat.zero_add]

end Sys2Proof.Proofs

namespace Sys2Proof.Proofs

open Sys2Proof.Machine Sys2Proof.Safety Sys2Proof.Laws

/-! ## The table text -/

/-- R217: a table text joins the lines of its entries. -/
theorem tableText_eq_joinLines (ct : List CodeEntry) : tableText ct = joinLines (ct.map lineText) := by
  induction ct using tableText.induct with
  | case1 => rfl
  | case2 e => rfl
  | case3 e e' es ih => rw [tableText, ih]; rfl

@[simp] theorem lineText_length (e : CodeEntry) :
    (lineText e).length = (decText e.sym).length + 1 + e.bits.length := by
  simp [lineText, charsText]
  omega

/-- A table's line is an entry of the grammar of R123, with its symbol and code. -/
theorem isEntry_lineText {e : CodeEntry} (h : e.bits ≠ []) : IsEntry (lineText e) (e.sym.toNat, e.bits) := by
  obtain ⟨hne, hdigits, hvalue, -⟩ := spells_decText e.sym
  exact ⟨decText e.sym, ⟨hne, hdigits⟩, h, hvalue.symm, rfl⟩

/-- Settles O41: the lines are entries of the grammar, which the parser accepts. -/
theorem tableTextParsesBack : Obligations.TableTextParsesBack := by
  intro ct hne hcodes
  refine (parserAcceptsTheGrammar _ _).2
    (isTable_iff.2 ⟨ct.map lineText, by simpa using hne, ?_, tableText_eq_joinLines ct⟩)
  rw [List.forall₂_map_left_iff, List.forall₂_map_right_iff, List.forall₂_same]
  exact fun e he => isEntry_lineText (hcodes e he)

/-- R218: T, the length of a table text. -/
theorem tableText_length {ct : List CodeEntry} (h : ct ≠ []) :
    (tableText ct).length =
      (ct.map (fun e => (decText e.sym).length + 1 + e.bits.length)).sum + (ct.length - 1) := by
  induction ct using tableText.induct with
  | case1 => exact absurd rfl h
  | case2 e => simp [tableText]
  | case3 e e' es ih =>
    have hrest := ih (by simp)
    simp [tableText] at hrest ⊢
    omega

/-- R218: a symbol up to 0x10FFFF takes at most 7 digits. -/
theorem decText_length_le {v : Word} (h : v.toNat ≤ 0x10FFFF) : (decText v).length ≤ 7 := by
  simpa [decText] using decDigits_length 10 v.toNat [] 7 (by omega) (by omega)

/-- Settles O28: the formula, and 263 bytes at most for each of at most 256 entries. -/
theorem tableTextLength : Obligations.TableTextLength := by
  intro ct hne
  have hformula := tableText_length hne
  refine ⟨hformula, fun hlen hlimits => ?_⟩
  have hentry : ∀ k ∈ ct.map (fun e => (decText e.sym).length + 1 + e.bits.length), k ≤ 263 := by
    rintro _ hk
    obtain ⟨e, he, rfl⟩ := List.mem_map.1 hk
    obtain ⟨hsym, hbits⟩ := hlimits e he
    have := decText_length_le hsym
    omega
  have hsum := List.sum_le_card_nsmul _ 263 hentry
  rw [List.length_map, smul_eq_mul] at hsum
  omega

end Sys2Proof.Proofs

namespace Sys2Proof.Proofs

open Sys2Proof.Machine Sys2Proof.Safety Sys2Proof.Laws

/-! ## The walk, pass by pass (R212) -/

@[simp] theorem walkTree_nil (ns : List Node) (fuel : Nat) : walkTree ns fuel [] = [] := by cases fuel <;> rfl

theorem walkTree_leaf {ns : List Node} {n : Nat} (h : (nodeGet ns n).kind = .leaf) (fuel : Nat) (c : Bits)
    (stack : List (Nat × Bits)) :
    walkTree ns (fuel + 1) ((n, c) :: stack) = ⟨(nodeGet ns n).sym, c⟩ :: walkTree ns fuel stack := by
  simp [walkTree, h]

theorem walkTree_internal {ns : List Node} {n : Nat} (h : (nodeGet ns n).kind = .internal) (fuel : Nat) (c : Bits)
    (stack : List (Nat × Bits)) :
    walkTree ns (fuel + 1) ((n, c) :: stack) =
      walkTree ns fuel (((nodeGet ns n).left, c ++ [false]) :: ((nodeGet ns n).right, c ++ [true]) :: stack) := by
  simp [walkTree, h]

/-- R215: any other node makes no entry. -/
theorem walkTree_other {ns : List Node} {n : Nat} (hleaf : (nodeGet ns n).kind ≠ .leaf)
    (hinner : (nodeGet ns n).kind ≠ .internal) (fuel : Nat) (c : Bits) (stack : List (Nat × Bits)) :
    walkTree ns (fuel + 1) ((n, c) :: stack) = walkTree ns fuel stack := by
  rw [walkTree]
  split <;> simp_all

/-- The walk that makes the code table of a tree: its root is INTERNAL. -/
theorem codeTable_eq_walkTree {ns : List Node} {leaves : Nat} (h : TreeOk ns leaves) (hL : 1 ≤ leaves) :
    codeTable ns = walkTree ns ns.length [(ns.length - 1, [])] :=
  if_neg (by simp [treeOk_root_internal h hL])

/-! ## Codes are paths -/

/-- A path through INTERNAL nodes, left on 0 and right on 1, from a node to a LEAF with the given symbol. -/
inductive PathToLeaf (ns : List Node) : Nat → Bits → Word → Prop where
  | here {n : Nat} (leaf : (nodeGet ns n).kind = .leaf) : PathToLeaf ns n [] (nodeGet ns n).sym
  | step {n : Nat} (b : Bool) {c : Bits} {v : Word} (internal : (nodeGet ns n).kind = .internal)
      (rest : PathToLeaf ns (if b then (nodeGet ns n).right else (nodeGet ns n).left) c v) : PathToLeaf ns n (b :: c) v

/-- A path leads to its leaf. -/
theorem PathToLeaf.descend {ns : List Node} {n : Nat} {c : Bits} {v : Word} (h : PathToLeaf ns n c v) :
    (nodeGet ns (descend ns n c)).kind = .leaf ∧ (nodeGet ns (descend ns n c)).sym = v := by
  induction h with
  | here hleaf => exact ⟨hleaf, rfl⟩
  | step b _ _ ih => exact ih

/-- The walk's entries are the paths from the stacked nodes to leaves, after the stacked codes. -/
theorem exists_path_of_mem_walkTree {ns : List Node} {fuel : Nat} {stack : List (Nat × Bits)} {e : CodeEntry}
    (he : e ∈ walkTree ns fuel stack) : ∃ p ∈ stack, ∃ c, e.bits = p.2 ++ c ∧ PathToLeaf ns p.1 c e.sym := by
  induction fuel generalizing stack with
  | zero => simp [walkTree] at he
  | succ fuel ih =>
    obtain _ | ⟨⟨n, c⟩, stack⟩ := stack
    · simp at he
    by_cases hleaf : (nodeGet ns n).kind = .leaf
    · rw [walkTree_leaf hleaf] at he
      obtain rfl | he := List.mem_cons.1 he
      · exact ⟨(n, c), by simp, [], by simp, .here hleaf⟩
      · obtain ⟨p, hp, hpath⟩ := ih he
        exact ⟨p, List.mem_cons_of_mem _ hp, hpath⟩
    by_cases hinner : (nodeGet ns n).kind = .internal
    · rw [walkTree_internal hinner] at he
      obtain ⟨p, hp, d, hbits, hpath⟩ := ih he
      simp only [List.mem_cons] at hp
      obtain rfl | rfl | hp := hp
      · exact ⟨(n, c), by simp, false :: d, by simpa using hbits, .step false hinner hpath⟩
      · exact ⟨(n, c), by simp, true :: d, by simpa using hbits, .step true hinner hpath⟩
      · exact ⟨p, List.mem_cons_of_mem _ hp, d, hbits, hpath⟩
    · rw [walkTree_other hleaf hinner] at he
      obtain ⟨p, hp, hpath⟩ := ih he
      exact ⟨p, List.mem_cons_of_mem _ hp, hpath⟩

/-- R212: a code is the path from the root to a leaf of its symbol. -/
theorem pathToLeaf_of_mem_codeTable {ns : List Node} {leaves : Nat} (h : TreeOk ns leaves) (hL : 1 ≤ leaves)
    {e : CodeEntry} (he : e ∈ codeTable ns) : PathToLeaf ns (ns.length - 1) e.bits e.sym := by
  rw [codeTable_eq_walkTree h hL] at he
  simpa using exists_path_of_mem_walkTree he

/-- Settles O27: an entry's code is a path, and a path leads to its leaf. -/
theorem codeIsThePathToItsLeaf : Obligations.CodeIsThePathToItsLeaf :=
  fun _ _ hL ht _ he => (pathToLeaf_of_mem_codeTable ht hL he).descend

/-! ## Codes part ways -/

/-- Two codes part at some bit, where `c` goes left and `d` goes right. -/
def PartsLeftOf (c d : Bits) : Prop := ∃ u v w, c = u ++ false :: v ∧ d = u ++ true :: w

/-- Codes that have parted stay apart however they go on. -/
theorem PartsLeftOf.append {c d : Bits} (h : PartsLeftOf c d) (x y : Bits) : PartsLeftOf (c ++ x) (d ++ y) := by
  obtain ⟨u, v, w, rfl, rfl⟩ := h
  exact ⟨u, v ++ x, w ++ y, by simp, by simp⟩

theorem PartsLeftOf.lt {c d : Bits} (h : PartsLeftOf c d) : c < d := by
  obtain ⟨u, v, w, rfl, rfl⟩ := h
  exact List.append_left_lt (List.cons_lt_cons_iff.2 (.inl (by decide)))

theorem PartsLeftOf.not_prefix {c d : Bits} (h : PartsLeftOf c d) : ¬ c <+: d ∧ ¬ d <+: c := by
  obtain ⟨u, v, w, rfl, rfl⟩ := h
  simp [List.prefix_append_right_inj, List.cons_prefix_cons]

/-- When the stacked codes have parted in order, so have the codes of the walk's entries: the two children's codes part at their
last bit, and the rest go on from the stacked ones. -/
theorem walkTree_pairwise_partsLeftOf (ns : List Node) (fuel : Nat) (stack : List (Nat × Bits))
    (h : stack.Pairwise (fun p q => PartsLeftOf p.2 q.2)) :
    (walkTree ns fuel stack).Pairwise (fun a b => PartsLeftOf a.bits b.bits) := by
  induction fuel generalizing stack with
  | zero => exact .nil
  | succ fuel ih =>
    obtain _ | ⟨⟨n, c⟩, stack⟩ := stack
    · simp
    obtain ⟨hhead, htail⟩ := List.pairwise_cons.1 h
    by_cases hleaf : (nodeGet ns n).kind = .leaf
    · rw [walkTree_leaf hleaf]
      refine .cons (fun e he => ?_) (ih stack htail)
      obtain ⟨p, hp, d, hbits, -⟩ := exists_path_of_mem_walkTree he
      simpa [hbits] using (hhead p hp).append [] d
    by_cases hinner : (nodeGet ns n).kind = .internal
    · rw [walkTree_internal hinner]
      have hchild (b : Bool) : ∀ q ∈ stack, PartsLeftOf (c ++ [b]) q.2 := fun q hq => by
        simpa using (hhead q hq).append [b] []
      refine ih _ (.cons (List.forall_mem_cons.2 ⟨?_, hchild false⟩) (.cons (hchild true) htail))
      exact ⟨c, [], [], rfl, rfl⟩
    · rw [walkTree_other hleaf hinner]
      exact ih stack htail

/-- The codes of a table part from each other in the table's order. -/
theorem codeTable_pairwise_partsLeftOf (ns : List Node) :
    (codeTable ns).Pairwise (fun a b => PartsLeftOf a.bits b.bits) := by
  unfold codeTable
  split
  · exact List.pairwise_singleton _ _
  · exact walkTree_pairwise_partsLeftOf _ _ _ (List.pairwise_singleton _ _)

/-- A successful GEN_CODES leaves the code table of the tree. -/
theorem ct_of_exec_genCodes_ok {s t : State} (h : exec .genCodes s = .next t) (hok : t.err = .ok) :
    t.ct = codeTable (treeNodes s) := by
  obtain ⟨-, rfl⟩ | ⟨-, rfl⟩ := exec_genCodes_next h
  · cases hok
  · rfl

/-- Settles O26: of two codes that part, the left one is below. -/
theorem codesAscend : Obligations.CodesAscend := by
  intro s t _ h hok
  rw [ct_of_exec_genCodes_ok h hok]
  exact (codeTable_pairwise_partsLeftOf _).imp PartsLeftOf.lt

/-- Settles O25: of two codes that part, neither begins the other, and they differ by their order. -/
theorem codesArePrefixFree : Obligations.CodesArePrefixFree := by
  intro s t _ h hok
  rw [ct_of_exec_genCodes_ok h hok]
  have hparts := List.pairwise_map.2 (codeTable_pairwise_partsLeftOf (treeNodes s))
  exact ⟨hparts.imp PartsLeftOf.not_prefix, hparts.imp fun hcd => hcd.lt.ne⟩

end Sys2Proof.Proofs

namespace Sys2Proof.Proofs

open Sys2Proof.Machine Sys2Proof.Safety Sys2Proof.Laws

/-! ## The lengths of the codes -/

/-- A path passes only INTERNAL nodes, each below the one before: its length is bounded by the records from the lowest such node
up to its start. -/
theorem PathToLeaf.length_le {ns : List Node} {leaves lowest : Nat} (ht : TreeOk ns leaves)
    (hlowest : ∀ m, (nodeGet ns m).kind = .internal → lowest ≤ m) {n : Nat} {c : Bits} {v : Word}
    (h : PathToLeaf ns n c v) : c.length ≤ n + 1 - lowest := by
  induction h with
  | here => exact Nat.zero_le _
  | @step n b c v hinner hrest ih =>
    have hn := hlowest n hinner
    obtain ⟨-, -, hleft, hright, -⟩ := treeOk_inner ht hinner
    have hchild : (if b then (nodeGet ns n).right else (nodeGet ns n).left) < n := by cases b <;> assumption
    rw [List.length_cons]
    omega

/-- A path that starts at an INTERNAL node has a first bit. -/
theorem PathToLeaf.ne_nil {ns : List Node} {n : Nat} {c : Bits} {v : Word} (h : PathToLeaf ns n c v)
    (hk : (nodeGet ns n).kind = .internal) : c ≠ [] := by
  cases h with
  | here hleaf => rw [hk] at hleaf; cases hleaf
  | step => exact List.cons_ne_nil _ _

/-- R11, R216: a code of a tree over L leaves has at least one bit, and at most L − 1, or 1 where L = 1. -/
theorem codeTable_bits_length {ns : List Node} {leaves : Nat} (ht : TreeOk ns leaves) (hL : 1 ≤ leaves) {e : CodeEntry}
    (he : e ∈ codeTable ns) : 1 ≤ e.bits.length ∧ e.bits.length ≤ max 1 (leaves - 1) := by
  have hpath := pathToLeaf_of_mem_codeTable ht hL he
  constructor
  · exact List.length_pos_iff.2 (hpath.ne_nil (treeOk_root_internal ht hL))
  · obtain ⟨hlen, hkinds, -, -, -⟩ := id ht
    have hlowest : ∀ m, (nodeGet ns m).kind = .internal → (if leaves = 1 then 2 else leaves) ≤ m := by
      intro m hm
      rw [hkinds m (List.mem_range.2 (lt_length_of_internal hm)), kindAt] at hm
      split_ifs at hm ⊢ <;> omega
    have hbound := hpath.length_le ht hlowest
    split_ifs at hlen hbound <;> omega

/-- RES1 of R211 is the length of a longest code. -/
theorem exists_longestCode {ct : List CodeEntry} (h : ct ≠ []) :
    ∃ e ∈ ct, longestCode ct = e.bits.length ∧ ∀ e' ∈ ct, e'.bits.length ≤ e.bits.length := by
  have hmax : (ct.map (fun e => e.bits.length)).max? = some (longestCode ct) := by
    obtain ⟨e, es, rfl⟩ := List.exists_cons_of_ne_nil h
    rw [List.map_cons, List.max?_cons', List.foldl_map, longestCode, List.foldl_cons, Nat.zero_max]
  obtain ⟨hmem, hle⟩ := List.max?_eq_some_iff.1 hmax
  obtain ⟨e, he, hlongest⟩ := List.mem_map.1 hmem
  exact ⟨e, he, hlongest.symm, fun e' he' => hlongest ▸ hle _ (List.mem_map_of_mem he')⟩

/-! ## The symbols of the table -/

/-- The symbols of the LEAF records among the given nodes. -/
def leafSyms (ns : List Node) (seen : List Nat) : List Word :=
  (seen.filter (makesEntry ns)).map (fun n => (nodeGet ns n).sym)

theorem leafSyms_cons_leaf {ns : List Node} {n : Nat} (h : (nodeGet ns n).kind = .leaf) (seen : List Nat) :
    leafSyms ns (n :: seen) = (nodeGet ns n).sym :: leafSyms ns seen := by
  simp [leafSyms, makesEntry, h]

theorem leafSyms_cons_other {ns : List Node} {n : Nat} (h : (nodeGet ns n).kind ≠ .leaf) (seen : List Nat) :
    leafSyms ns (n :: seen) = leafSyms ns seen := by
  simp [leafSyms, makesEntry, h]

theorem leafSyms_perm {ns : List Node} {seen seen' : List Nat} (h : seen.Perm seen') :
    (leafSyms ns seen).Perm (leafSyms ns seen') :=
  (h.filter _).map _

/-- The walk makes an entry for the symbol of each LEAF not popped yet. -/
theorem walkTree_syms_perm {ns : List Node} {leaves : Nat} (ht : TreeOk ns leaves) (fuel : Nat)
    (stack : List (Nat × Bits)) (seen : List Nat) (h : WalkOk ns seen (stack.map Prod.fst))
    (hfuel : seen.length + fuel = ns.length) :
    ((walkTree ns fuel stack).map (fun e => e.sym) ++ leafSyms ns seen).Perm (leafSyms ns (List.range ns.length)) := by
  induction fuel generalizing stack seen with
  | zero =>
    have hnil := walkOk_todo_nil h hfuel
    rw [hnil] at h
    simpa [walkTree] using leafSyms_perm (walkOk_seen_perm ht h)
  | succ fuel ih =>
    obtain _ | ⟨⟨n, c⟩, stack⟩ := stack
    · simpa using leafSyms_perm (walkOk_seen_perm ht h)
    have hfuel' : (n :: seen).length + fuel = ns.length := by simp; omega
    by_cases hleaf : (nodeGet ns n).kind = .leaf
    · have hrest := ih stack (n :: seen) (walkOk_pop h (by simp [hleaf])) hfuel'
      rw [leafSyms_cons_leaf hleaf] at hrest
      rw [walkTree_leaf hleaf, List.map_cons]
      exact List.perm_middle.symm.trans hrest
    rw [← leafSyms_cons_other hleaf]
    by_cases hinner : (nodeGet ns n).kind = .internal
    · rw [walkTree_internal hinner]
      exact ih _ _ (walkOk_push ht h hinner) hfuel'
    · rw [walkTree_other hleaf hinner]
      exact ih _ _ (walkOk_pop h hinner) hfuel'

/-- The LEAF records of a tree of R55 are its first ones. -/
theorem treeOk_filter_makesEntry {ns : List Node} {leaves : Nat} (h : TreeOk ns leaves) :
    ((List.range ns.length).filter (makesEntry ns)).Perm (List.range leaves) := by
  refine (List.perm_ext_iff_of_nodup (List.nodup_range.filter _) List.nodup_range).2 fun n => ?_
  simp only [List.mem_filter, List.mem_range, makesEntry, beq_iff_eq]
  constructor
  · exact fun hn => treeOk_leaf_lt h hn.2
  · intro hn
    have hlt := lt_of_lt_of_le hn (treeOk_leaves_le h)
    obtain ⟨-, hkinds, -, -, -⟩ := h
    exact ⟨hlt, by rw [hkinds n (List.mem_range.2 hlt), kindAt, if_pos hn]⟩

/-- R216: the table's symbols are those of the tree's leaves, each once. -/
theorem codeTable_syms_perm {ns : List Node} {leaves : Nat} (h : TreeOk ns leaves) (hL : 1 ≤ leaves) :
    ((codeTable ns).map (fun e => e.sym)).Perm ((ns.take leaves).map (fun r => r.sym)) := by
  have hle := treeOk_leaves_le h
  have hwalk := walkTree_syms_perm h ns.length [(ns.length - 1, [])] [] (walkOk_root (by omega)) (by simp)
  have hleaves := (treeOk_filter_makesEntry h).map (fun n => (nodeGet ns n).sym)
  rw [codeTable_eq_walkTree h hL, ← nodeSlice_eq_take ns hle, nodeSlice, List.map_map]
  simpa [leafSyms, Function.comp_def] using hwalk.trans hleaves

/-- Each loaded symbol has one entry: the leaves' symbols ascend, so they are different. -/
theorem codeTable_one_entry {p : Params} {ns : List Node} {leaves total : Nat} (hleaves : LeavesOk p (ns.take leaves) total)
    (ht : TreeOk ns leaves) (hL : 1 ≤ leaves) {n : Nat} (hn : n < leaves) :
    ((codeTable ns).filter (fun e => e.sym == (nodeGet ns n).sym)).length = 1 := by
  obtain ⟨-, -, -, hasc, -⟩ := hleaves
  have hperm := codeTable_syms_perm ht hL
  have hnodup : ((ns.take leaves).map (fun r => r.sym)).Nodup :=
    List.pairwise_map.2 (hasc.imp fun hlt heq => hlt.ne (congrArg _ heq))
  have hmem : (nodeGet ns n).sym ∈ (codeTable ns).map (fun e => e.sym) := by
    rw [hperm.mem_iff, ← nodeSlice_eq_take ns (treeOk_leaves_le ht), nodeSlice, List.map_map]
    exact List.mem_map_of_mem (f := fun n => (nodeGet ns n).sym) (List.mem_range.2 hn)
  have hcount := List.count_eq_one_of_mem (hperm.nodup_iff.2 hnodup) hmem
  rw [List.count, List.countP_map, List.countP_eq_length_filter] at hcount
  exact hcount

/-! ## GEN_CODES: its two outcomes -/

theorem exec_genCodes_treeBuilt {s : State} (h : s.phase = .treeBuilt) :
    exec .genCodes s =
      .next (finish .ok (setRes (Word.ofNat (codeTable (treeNodes s)).length)
        (Word.ofNat (longestCode (codeTable (treeNodes s))))
        (Word.ofNat (tableText (codeTable (treeNodes s))).length) (setCodes (codeTable (treeNodes s)) s))) := by
  simp [exec, execGenCodes, h, complete]

theorem exec_genCodes_outOfPhase {s : State} (h : s.phase ≠ .treeBuilt) :
    exec .genCodes s = .next (finish .sequenceError (setRes 0 0 0 s)) := by
  simp [exec, execGenCodes, h, failWith]

/-- NODE[0..NODE_COUNT−1] is the whole RAM where the count is the number of records held. -/
theorem treeNodes_eq_nodes {s : State} (h : s.nodes.length = s.nodeCount) : treeNodes s = s.nodes := by
  rw [treeNodes, ← h, nodeSlice_eq_take _ le_rfl, List.take_length]

/-- Settles O24: on success the table is that of the whole node RAM, a tree over the loaded leaves. -/
theorem genCodesFillsTheTable : Obligations.GenCodesFillsTheTable := by
  intro s
  refine ⟨fun hp hlegal hc => ?_, exec_genCodes_outOfPhase⟩
  simp only [ContextOk, hp] at hc
  obtain ⟨⟨hle, hcount, hleaves, htree⟩, -, -⟩ := hc
  obtain ⟨hpos, hmax, -, -, -⟩ := id hleaves
  rw [List.length_take_of_le hle] at hpos hmax
  have hlen := codeTable_length htree hpos
  have hne : codeTable s.nodes ≠ [] := List.ne_nil_of_length_pos (by omega)
  have hroom : max 1 (s.leafCount - 1) ≤ s.cfg.maxCodeLen := by
    have h2 : 2 ≤ s.cfg.lMax := by
      simp only [Params.legal, Bool.and_eq_true, decide_eq_true_eq] at hlegal
      omega
    simp only [Params.maxCodeLen]
    omega
  have hbits : ∀ e ∈ codeTable s.nodes, 1 ≤ e.bits.length ∧ e.bits.length ≤ s.cfg.maxCodeLen := fun e he =>
    (codeTable_bits_length htree hpos he).imp_right hroom.trans'
  obtain ⟨e, he, hlongest, hlongest_le⟩ := exists_longestCode hne
  have hexec := exec_genCodes_treeBuilt hp
  rw [treeNodes_eq_nodes hcount, hlen, hlongest] at hexec
  exact ⟨_, hexec, rfl, rfl, rfl, rfl, hlen, hlen, fun n hn => codeTable_one_entry hleaves htree hpos hn, hbits, rfl,
    ⟨e, he, rfl, hlongest_le⟩, rfl, rfl, rfl⟩

end Sys2Proof.Proofs

namespace Sys2Proof.Proofs

open Sys2Proof.Machine Sys2Proof.Safety Sys2Proof.Laws

/-! ## The consistency scan (R243) -/

/-- The symbols that remaining counts still ask for, each as often as its count. -/
def owed (rem : List (Word × Nat)) : List Word := rem.flatMap (fun p => List.replicate p.2 p.1)

theorem owed_cons (t : Word) (r : Nat) (rem : List (Word × Nat)) : owed ((t, r) :: rem) = List.replicate r t ++ owed rem := rfl

theorem owed_eq_nil_iff {rem : List (Word × Nat)} : owed rem = [] ↔ ∀ p ∈ rem, p.2 = 0 := by
  simp [owed, List.flatMap_eq_nil_iff]

theorem notMem_owed {rem : List (Word × Nat)} {w : Word} (h : w ∉ rem.map Prod.fst) : w ∉ owed rem := by
  simp only [owed, List.mem_flatMap, List.mem_replicate]
  rintro ⟨p, hp, -, rfl⟩
  exact h (List.mem_map_of_mem hp)

theorem count_owed_loadedCounts (leaves : List Node) (w : Word) :
    (owed (loadedCounts leaves)).count w = weightOf leaves w := by
  induction leaves with
  | nil => rfl
  | cons r leaves ih =>
    have hrest : weightOf (r :: leaves) w = (if r.sym == w then r.weight.toNat else 0) + weightOf leaves w := by
      by_cases h : r.sym == w <;> simp [weightOf, h]
    rw [hrest, ← ih, loadedCounts, List.map_cons, owed_cons, List.count_append, List.count_replicate]
    rfl

theorem scanOne_cons_self (v : Word) (r : Nat) (rem : List (Word × Nat)) :
    scanOne v ((v, r) :: rem) = if r = 0 then none else some ((v, r - 1) :: rem) := if_pos rfl

theorem scanOne_cons_of_ne {v t : Word} (h : t ≠ v) (r : Nat) (rem : List (Word × Nat)) :
    scanOne v ((t, r) :: rem) = (scanOne v rem).map (List.cons (t, r)) := by
  rw [scanOne, if_neg h]
  cases scanOne v rem <;> rfl

/-- A step that passes takes its symbol off what is owed, and the symbols counted stay the same. -/
theorem scanOne_eq_some {v : Word} {rem rem' : List (Word × Nat)} (h : scanOne v rem = some rem') :
    (owed rem).Perm (v :: owed rem') ∧ rem'.map Prod.fst = rem.map Prod.fst := by
  induction rem generalizing rem' with
  | nil => cases h
  | cons p rem ih =>
    obtain ⟨t, r⟩ := p
    by_cases hv : t = v
    · subst hv
      rw [scanOne_cons_self] at h
      split_ifs at h with hr
      obtain ⟨k, rfl⟩ := Nat.exists_eq_succ_of_ne_zero hr
      cases h
      exact ⟨.rfl, rfl⟩
    · rw [scanOne_cons_of_ne hv] at h
      obtain ⟨rest, hrest, rfl⟩ := Option.map_eq_some_iff.1 h
      obtain ⟨hperm, hkeys⟩ := ih hrest
      refine ⟨?_, by simp [hkeys]⟩
      rw [owed_cons, owed_cons]
      exact (hperm.append_left _).trans List.perm_middle

/-- Checks (c) and (d) of R241: a step fails only on a symbol that is not owed. -/
theorem scanOne_eq_none {v : Word} {rem : List (Word × Nat)} (hkeys : (rem.map Prod.fst).Nodup)
    (h : scanOne v rem = none) : v ∉ owed rem := by
  induction rem with
  | nil => exact List.not_mem_nil
  | cons p rem ih =>
    obtain ⟨t, r⟩ := p
    obtain ⟨hfresh, hrest⟩ := List.nodup_cons.1 hkeys
    by_cases hv : t = v
    · subst hv
      rw [scanOne_cons_self] at h
      split_ifs at h with hr
      simpa [owed_cons, hr] using notMem_owed hfresh
    · rw [scanOne_cons_of_ne hv, Option.map_eq_none_iff] at h
      simpa [owed_cons, List.mem_replicate, Ne.symm hv] using ih hrest h

/-- The scan uses up all the counts exactly on the rearrangements of what is owed. -/
theorem scanAll_exhausts_iff {input : List Word} {rem : List (Word × Nat)} (hkeys : (rem.map Prod.fst).Nodup) :
    (∃ rem', scanAll input rem = some rem' ∧ owed rem' = []) ↔ input.Perm (owed rem) := by
  induction input generalizing rem with
  | nil => simp [scanAll, List.nil_perm]
  | cons v input ih =>
    cases hone : scanOne v rem with
    | none =>
      have hv := scanOne_eq_none hkeys hone
      simpa [scanAll, hone] using fun hperm : (v :: input).Perm (owed rem) => hv (hperm.subset List.mem_cons_self)
    | some rem₁ =>
      obtain ⟨hperm, hfst⟩ := scanOne_eq_some hone
      simp only [scanAll, hone]
      rw [ih (hfst ▸ hkeys), hperm.congr_right, List.perm_cons]

theorem inputMatches_iff {leaves : List Node} {input : List Word} :
    inputMatches leaves input = true ↔ ∃ rem, scanAll input (loadedCounts leaves) = some rem ∧ owed rem = [] := by
  simp only [owed_eq_nil_iff, inputMatches]
  cases scanAll input (loadedCounts leaves) <;> simp

/-- An input holds every symbol as often as its count exactly when it rearranges what the counts ask for. -/
theorem count_eq_weightOf_iff {leaves : List Node} {input : List Word} :
    (∀ w, input.count w = weightOf leaves w) ↔ input.Perm (owed (loadedCounts leaves)) := by
  rw [List.perm_iff_count]
  simp only [count_owed_loadedCounts]

/-- Settles O32: the scan takes each word of the input off what the leaves' counts ask for. -/
theorem scanAcceptsTheLoadedMultiset : Obligations.ScanAcceptsTheLoadedMultiset := by
  intro leaves input hdistinct
  have hkeys : ((loadedCounts leaves).map Prod.fst).Nodup := by
    simpa [loadedCounts, List.Nodup, List.pairwise_map] using hdistinct
  rw [inputMatches_iff, scanAll_exhausts_iff hkeys, count_eq_weightOf_iff]

/-! ## The payload's bit count (R244, R245) -/

/-- The bits that the codes of all owed symbols take. -/
theorem codeBits_owed_length (ct : List CodeEntry) (leaves : List Node) :
    (codeBits ct (owed (loadedCounts leaves))).length =
      (leaves.map (fun r => r.weight.toNat * (codeOf ct r.sym).length)).sum := by
  induction leaves with
  | nil => rfl
  | cons r leaves ih =>
    rw [loadedCounts, List.map_cons, owed_cons, codeBits, List.flatMap_append, List.length_append, List.map_cons,
      List.sum_cons, ← ih, List.length_flatMap, List.map_replicate, List.sum_replicate, smul_eq_mul]
    rfl

/-- Code(s) of a symbol with an entry is the code of such an entry. -/
theorem exists_codeOf_eq {ct : List CodeEntry} {w : Word} (h : w ∈ ct.map (fun e => e.sym)) :
    ∃ e ∈ ct, codeOf ct w = e.bits := by
  obtain ⟨e₀, he₀, rfl⟩ := List.mem_map.1 h
  cases hfind : ct.find? (fun e => e.sym == e₀.sym) with
  | none => exact absurd (beq_self_eq_true _) (List.find?_eq_none.1 hfind e₀ he₀)
  | some e => exact ⟨e, List.mem_of_find?_eq_some hfind, by simp [codeOf, hfind]⟩

/-- In CODES_READY the records are loaded leaves under a tree, with its code table (R50). -/
theorem contextOk_codesReady {s : State} (hp : s.phase = .codesReady) (h : ContextOk s) :
    BuiltOk s ∧ s.ct = codeTable s.nodes ∧ codeEntries s = s.ct := by
  simp only [ContextOk, hp] at h
  obtain ⟨hbuilt, hct, hcount, -⟩ := h
  exact ⟨hbuilt, hct, by rw [codeEntries, hcount, List.take_length]⟩

/-- Each loaded symbol has a code of at least one bit. -/
theorem codeOf_length_pos {p : Params} {ns : List Node} {leaves total : Nat} (hleaves : LeavesOk p (ns.take leaves) total)
    (ht : TreeOk ns leaves) {r : Node} (hr : r ∈ ns.take leaves) : 1 ≤ (codeOf (codeTable ns) r.sym).length := by
  have hL : 1 ≤ leaves := by simpa [treeOk_leaves_le ht] using hleaves.1
  obtain ⟨e, he, hcode⟩ := exists_codeOf_eq
    ((codeTable_syms_perm ht hL).mem_iff.2 (List.mem_map_of_mem (f := fun r => r.sym) hr))
  exact hcode ▸ (codeTable_bits_length ht hL he).1

/-- Settles O34: an input that rearranges the owed symbols has their codes' bits, and the first leaf has one at least. -/
theorem payloadBitCount : Obligations.PayloadBitCount := by
  intro s input hp hc hcounts
  obtain ⟨⟨-, -, hleaves, htree⟩, hct, -⟩ := contextOk_codesReady hp hc
  have hperm := count_eq_weightOf_iff.1 hcounts
  have hbits := ((hperm.flatMap_right (codeOf s.ct)).length_eq).trans (codeBits_owed_length s.ct _)
  refine ⟨hbits, ?_⟩
  obtain ⟨hpos, -, hleaf, -, -⟩ := id hleaves
  have hr := List.getElem_mem hpos
  obtain ⟨-, -, hweight⟩ := hleaf _ hr
  have hcode := codeOf_length_pos hleaves htree hr
  rw [← hct] at hcode
  rw [codeBits, hbits]
  exact (Nat.mul_le_mul hweight hcode).trans (List.single_le_sum (by simp) _ (List.mem_map_of_mem hr))

/-- Settles O33: the pad is what the last payload byte lacks. -/
theorem padFillsTheLastByte : Obligations.PadFillsTheLastByte := by
  intro b
  refine ⟨rfl, ?_⟩
  simp only [padOf, payloadLen]
  omega

end Sys2Proof.Proofs

namespace Sys2Proof.Proofs

open Sys2Proof.Machine Sys2Proof.Safety Sys2Proof.Laws

/-! ## ENCODE's status -/

/-- ENCODE's status is that of its first failing check, and OK when none fails. -/
theorem exec_encode_err (s : State) :
    ∃ t, exec .encode s = .next t ∧ t.err = (encodeCheck s (operand0 s).toNat).getD .ok := by
  cases h : encodeCheck s (operand0 s).toNat with
  | some e => exact ⟨_, exec_encode_fails h, rfl⟩
  | none => exact ⟨_, exec_encode_succeeds h, rfl⟩

/-- Settles O31: the model's chain of checks, with check (f) as the container's length. -/
theorem encodeFirstFailingCheck : Obligations.EncodeFirstFailingCheck := by
  intro s l hb
  obtain ⟨t, hexec, herr⟩ := exec_encode_err s
  refine ⟨t, hexec, ?_⟩
  rw [herr, (operand_latched hb).1]
  simp only [encodeCheck, length_container, apply_ite (Option.getD · Status.ok), Option.getD_some, Option.getD_none]

/-! ## The bytes of the container (R119, R247) -/

theorem bytAt_putContainer (bytes : List Byte) (s : State) (j : Nat) :
    bytAt (putContainer bytes s) j = (bytes[j]?).getD (bytAt s j) :=
  (bytAt_congr rfl rfl j).trans (bytAt_bytFill s bytes j)

/-- R119: the container is five header bytes, the table text and the payload. -/
theorem container_eq (ct : List CodeEntry) (c : Bits) :
    container ct c =
      (BitVec.ofNat 8 (padOf c.length) :: be32 (tableText ct).length) ++ (tableText ct ++ packBits c) := by
  simp [container]

/-- Past the header stand the bytes of the table text and the payload. -/
theorem getElem?_container_add (ct : List CodeEntry) (c : Bits) (k : Nat) :
    (container ct c)[5 + k]? = (tableText ct ++ packBits c)[k]? := by
  rw [container_eq, List.getElem?_append_right (by simp [be32])]
  simp [be32]

/-- Byte 0 is the pad-count (R120). -/
theorem getElem?_container_zero (ct : List CodeEntry) (c : Bits) :
    (container ct c)[0]? = some (BitVec.ofNat 8 (padOf c.length)) := rfl

/-- Bytes 1 to 4 are the table length (R122). -/
theorem getElem?_container_tableLen (ct : List CodeEntry) (c : Bits) {k : Nat} (h : k < 4) :
    (container ct c)[k + 1]? = (be32 (tableText ct).length)[k]? := by
  rw [container_eq, List.cons_append, List.getElem?_cons_succ, List.getElem?_append_left (by simpa [be32] using h)]

theorem getElem?_container_text (ct : List CodeEntry) (c : Bits) {k : Nat} (h : k < (tableText ct).length) :
    (container ct c)[5 + k]? = (tableText ct)[k]? := by
  rw [getElem?_container_add, List.getElem?_append_left h]

theorem getElem?_container_payload (ct : List CodeEntry) (c : Bits) {m : Nat} (h : m < payloadLen c.length) :
    (container ct c)[5 + (tableText ct).length + m]? = some (packByte c m) := by
  rw [Nat.add_assoc, getElem?_container_add, List.getElem?_append_right (by omega)]
  simp [packBits, h]

/-- R122: four big-endian bytes hold a length below 2^32. -/
theorem be32_toNat {t : Nat} (h : t < 2 ^ 32) :
    (BitVec.ofNat 8 (t / 2 ^ 24)).toNat * 2 ^ 24 + (BitVec.ofNat 8 (t / 2 ^ 16)).toNat * 2 ^ 16 +
      (BitVec.ofNat 8 (t / 2 ^ 8)).toNat * 2 ^ 8 + (BitVec.ofNat 8 t).toNat = t := by
  simp only [BitVec.toNat_ofNat]
  omega

/-- R127: bit `i` of the eight that byte `m` holds stands in bit 7 − i of the byte. -/
theorem packByte_getLsbD (bits : Bits) (m : Nat) {i : Nat} (h : i < 8) :
    (packByte bits m).getLsbD (7 - i) = (bits[8 * m + i]?).getD false := by
  have hbit := congrArg (fun l : Bits => l[i]?) (byteBits_packByte bits m)
  simpa [byteBits, h] using hbit

/-! ## ENCODE of the loaded symbols -/

/-- The checks (a) to (f) of R241 pass on an input that holds each loaded symbol as often as its count. -/
theorem encodeCheck_eq_none {s : State} {n : Nat} (hp : s.phase = .codesReady) (hc : ContextOk s) (hn : n ≤ s.cfg.symWords)
    (hcounts : ∀ w, (symSlice s n).count w = weightOf (s.nodes.take s.leafCount) w)
    (hroom : (container (codeEntries s) (encodeBits s n)).length ≤ s.cfg.bytBytes) : encodeCheck s n = none := by
  obtain ⟨⟨hle, -, ⟨-, -, -, hasc, -⟩, -⟩, -, -⟩ := contextOk_codesReady hp hc
  have hdistinct := hasc.imp fun hlt heq => hlt.ne (congrArg BitVec.toNat heq)
  have hscan := (scanAcceptsTheLoadedMultiset _ _ hdistinct).2 hcounts
  rw [← nodeSlice_eq_take _ hle] at hscan
  rw [length_container] at hroom
  unfold encodeCheck
  rw [if_neg (not_not.2 hp), if_neg (by omega), if_neg (by simp [hscan]), if_neg (by omega)]

/-- ENCODE with every check passed: the completion record, and BYT with the container from byte 0 on (R247, R248). -/
theorem exec_encode_completes {s : State} {l : Latch} (hb : s.busy = some l) (h : encodeCheck s l.a0.toNat = none) :
    ∃ t, exec .encode s = .next t ∧ t.err = .ok ∧ t.done = true ∧ t.busy = none ∧ t.phase = s.phase ∧
      t.outLen = Word.ofNat (container (codeEntries s) (encodeBits s l.a0.toNat)).length ∧
      t.res0 = Word.ofNat (tableText (codeEntries s)).length ∧ t.res1 = Word.ofNat (encodeBits s l.a0.toNat).length ∧
      t.res2 = Word.ofNat (padOf (encodeBits s l.a0.toNat).length) ∧
      ∀ j, bytAt t j = ((container (codeEntries s) (encodeBits s l.a0.toNat))[j]?).getD (bytAt s j) := by
  rw [← (operand_latched hb).1] at h ⊢
  exact ⟨_, exec_encode_succeeds h, rfl, rfl, rfl, rfl, rfl, rfl, rfl, rfl, bytAt_putContainer _ s⟩

/-- Settles O30: every check passes, and BYT holds the container's header, table text and payload. -/
theorem encodeWritesContainer : Obligations.EncodeWritesContainer := by
  intro s l input bits text hb hp hlegal hc hn hinput hcounts hbits htext hroom
  obtain ⟨-, -, hentries⟩ := contextOk_codesReady hp hc
  subst hinput
  have hencode : encodeBits s l.a0.toNat = bits := by rw [encodeBits, hentries, hbits, codeBits]
  have hlen : (container s.ct bits).length = 5 + text.length + (bits.length + 7) / 8 := htext ▸ length_container s.ct bits
  have hcheck := encodeCheck_eq_none hp hc hn hcounts (by rw [hentries, hencode, hlen]; exact hroom)
  have hsize : s.cfg.bytBytes ≤ 2 ^ 21 := by
    simp only [Params.legal, Bool.and_eq_true, decide_eq_true_eq] at hlegal
    exact hlegal.2
  obtain ⟨-, hpad, -, -⟩ := padFillsTheLastByte bits.length
  obtain ⟨t, hexec, herr, hdone, hbusy, hphase, hout, hres0, hres1, hres2, hbyt⟩ := exec_encode_completes hb hcheck
  rw [hencode] at hbyt hout hres1 hres2
  rw [hentries] at hbyt hout hres0
  refine ⟨t, hexec, herr, hdone, hbusy, hphase.trans hp, ?_, ?_, ?_, ?_, ?_, ?_, fun k hk => ?_, fun m i hm hi => ?_,
    fun j hj => ?_⟩
  · rw [hout, hlen, Word.toNat_ofNat, Nat.mod_eq_of_lt (by omega)]
  · rw [hres0, ← htext, Word.toNat_ofNat, Nat.mod_eq_of_lt (by omega)]
  · rw [hres1, Word.toNat_ofNat, Nat.mod_eq_of_lt (by omega)]
  · rw [hres2, Word.toNat_ofNat, Nat.mod_eq_of_lt (by omega), padOf, payloadLen]
  · rw [hbyt, getElem?_container_zero, Option.getD_some, BitVec.toNat_ofNat, Nat.mod_eq_of_lt (by omega), padOf, payloadLen]
  · have hlength (k : Nat) (hk : k < 4) : bytAt t (k + 1) = ((be32 text.length)[k]?).getD (bytAt s (k + 1)) := by
      rw [hbyt, getElem?_container_tableLen s.ct bits hk, ← htext]
    rw [hlength 0 (by omega), hlength 1 (by omega), hlength 2 (by omega), hlength 3 (by omega)]
    exact be32_toNat (by omega)
  · rw [hbyt, getElem?_container_text s.ct bits (htext ▸ hk), ← htext, List.getElem?_eq_getElem hk, Option.getD_some]
  · rw [hbyt, htext, getElem?_container_payload s.ct bits hm, Option.getD_some, packByte_getLsbD bits m hi]
  · rw [hbyt, List.getElem?_eq_none (hlen ▸ hj), Option.getD_none]

end Sys2Proof.Proofs

namespace Sys2Proof.Proofs

open Sys2Proof.Machine Sys2Proof.Safety Sys2Proof.Laws

/-! ## DECODE's status and its header checks (R271, R273) -/

/-- Settles O36: a failing and a successful DECODE both start from the cleared context. -/
theorem decodeClearsContext : Obligations.DecodeClearsContext := by
  intro s
  cases h : decodeResult s (operand0 s).toNat with
  | error e => exact ⟨_, exec_decode_fails h, rfl, rfl, rfl, rfl, rfl⟩
  | ok d => exact ⟨_, exec_decode_succeeds h, rfl, rfl, rfl, rfl, rfl⟩

/-- The status that the outcome of a run of checks stands for: the failing check's, OK where none failed. -/
def outcomeStatus {α : Type} : Except Status α → Status
  | .error e => e
  | .ok _ => .ok

@[simp] theorem outcomeStatus_map {α β : Type} (f : α → β) (r : Except Status α) :
    outcomeStatus (r.map f) = outcomeStatus r := by
  cases r <;> rfl

theorem exec_decode_err (s : State) :
    ∃ t, exec .decode s = .next t ∧ t.err = outcomeStatus (decodeResult s (operand0 s).toNat) := by
  cases h : decodeResult s (operand0 s).toNat with
  | error e => exact ⟨_, exec_decode_fails h, rfl⟩
  | ok d => exact ⟨_, exec_decode_succeeds h, rfl⟩

theorem decodeResult_of_gt {s : State} {n : Nat} (h : s.cfg.bytBytes < n) : decodeResult s n = .error .capacityExceeded :=
  if_pos h

theorem decodeResult_of_le {s : State} {n : Nat} (h : n ≤ s.cfg.bytBytes) :
    decodeResult s n = decodeContainer s.cfg (bytSlice s n) :=
  if_neg (Nat.not_lt.2 h)

/-- R273 (b): a container needs its five header bytes. -/
theorem decodeContainer_short {p : Params} {c : List Byte} (h : c.length < 5) :
    decodeContainer p c = .error .malformedContainer := by
  unfold decodeContainer
  split
  · exact absurd h (by simp)
  · rfl

/-- R273 (c): the table must end within the container. -/
theorem decodeContainer_tableLen_gt (p : Params) (pad : Byte) {b1 b2 b3 b4 : Byte} {rest : List Byte}
    (h : rest.length < be32Value b1 b2 b3 b4) :
    decodeContainer p (pad :: b1 :: b2 :: b3 :: b4 :: rest) = .error .malformedContainer :=
  if_pos h

/-- A container with room for a header begins with BYT[0..4]. -/
theorem bytSlice_header (s : State) {n : Nat} (h : 5 ≤ n) :
    ∃ rest, bytSlice s n = bytAt s 0 :: bytAt s 1 :: bytAt s 2 :: bytAt s 3 :: bytAt s 4 :: rest ∧
      rest.length = n - 5 := by
  obtain ⟨k, rfl⟩ := Nat.exists_eq_add_of_le h
  exact ⟨(List.range k).map (fun j => bytAt s (5 + j)), by simp [bytSlice, List.range_add, List.range_succ, Function.comp_def],
    by simp⟩

/-- Settles O38: each clause by the equation for its check. -/
theorem decodeHeaderChecks : Obligations.DecodeHeaderChecks := by
  intro s l hb
  obtain ⟨t, hexec, herr⟩ := exec_decode_err s
  rw [(operand_latched hb).1] at herr
  refine ⟨t, hexec, fun hbig => ?_, fun hfits hshort => ?_, fun hfits hheader htable => ?_⟩
  · rw [herr, decodeResult_of_gt hbig]
    rfl
  · rw [herr, decodeResult_of_le hfits, decodeContainer_short (by rwa [length_bytSlice])]
    rfl
  · obtain ⟨rest, hslice, hlen⟩ := bytSlice_header s hheader
    rw [herr, decodeResult_of_le hfits, hslice, decodeContainer_tableLen_gt _ _ (hlen ▸ htable)]
    rfl

/-! ## DECODE past the header -/

theorem decodeContainer_tableLen_le (p : Params) (pad : Byte) {b1 b2 b3 b4 : Byte} {rest : List Byte}
    (h : be32Value b1 b2 b3 b4 ≤ rest.length) :
    decodeContainer p (pad :: b1 :: b2 :: b3 :: b4 :: rest) = decodeBody p pad.toNat (be32Value b1 b2 b3 b4) rest :=
  if_neg (Nat.not_lt.2 h)

/-- Steps (d) to (h) of R271 run on the table text and on the payload after it. -/
theorem decodeBody_append (p : Params) (pad : Nat) (text payload : List Byte) :
    decodeBody p pad text.length (text ++ payload) =
      (decodeTable p text).bind fun root => (decodePayload p root pad payload).map (Decoded.mk pad text.length) := by
  rw [decodeBody, List.take_left, List.drop_left]
  cases decodeTable p text with
  | error e => rfl
  | ok root =>
    simp only [Except.bind]
    cases decodePayload p root pad payload <;> rfl

/-- A container that fits BYT and whose table text is as long as its header says. -/
theorem decodeResult_of_bytSlice {s : State} {n : Nat} {pad b1 b2 b3 b4 : Byte} {text payload : List Byte}
    (hfits : n ≤ s.cfg.bytBytes) (hslice : bytSlice s n = pad :: b1 :: b2 :: b3 :: b4 :: (text ++ payload))
    (hlen : be32Value b1 b2 b3 b4 = text.length) :
    decodeResult s n = decodeBody s.cfg pad.toNat text.length (text ++ payload) := by
  rw [decodeResult_of_le hfits, hslice, decodeContainer_tableLen_le _ _ (by simp [hlen]), hlen]

theorem decodeTable_of_parse {p : Params} {text : List Byte} {es : List (Nat × Bits)} (h : parseTable text = some es) :
    decodeTable p text = buildTrie p es := by
  simp [decodeTable, h]

theorem decodePayload_of_walk {p : Params} {root : Trie} {pad : Nat} {payload : List Byte} {out : List Word}
    (hpad : pad ≤ 8 * payload.length)
    (hwalk : walkBits root none ((unpackBits payload).take (8 * payload.length - pad)) = some out)
    (hroom : out.length ≤ p.symWords) : decodePayload p root pad payload = .ok out := by
  simp [decodePayload, Nat.not_lt.2 hpad, hwalk, Nat.not_lt.2 hroom]

theorem symAt_putSymbols (out : List Word) (s : State) (k : Nat) :
    symAt (putSymbols out s) k = (out[k]?).getD (symAt s k) :=
  (symAt_congr rfl rfl k).trans (symAt_symFill s out k)

/-- Settles O37: every step of R271 passes, and the completion writes SYM, OUT_LEN and the results. -/
theorem decodeWritesSymbols : Obligations.DecodeWritesSymbols := by
  intro s l pad b1 b2 b3 b4 text payload es root out hb hlegal hfits hslice hlen hparse hbuild hpad hwalk hroom
  have hresult : decodeResult s (operand0 s).toNat = .ok ⟨pad.toNat, text.length, out⟩ := by
    rw [(operand_latched hb).1, decodeResult_of_bytSlice hfits hslice hlen, decodeBody_append, decodeTable_of_parse hparse,
      hbuild]
    exact congrArg (Except.map _) (decodePayload_of_walk hpad hwalk hroom)
  have htext : text.length < 2 ^ 32 := hlen ▸ by have := b1.isLt; have := b2.isLt; have := b3.isLt; have := b4.isLt; omega
  have hout : out.length < 2 ^ 32 := by
    simp only [Params.legal, Bool.and_eq_true, decide_eq_true_eq] at hlegal
    omega
  have hpad32 : pad.toNat < 2 ^ 32 := pad.isLt.trans (by decide)
  refine ⟨_, exec_decode_succeeds hresult, rfl, rfl, rfl, rfl, ?_, ?_, ?_, ?_, fun k hk => ?_, fun k hk => ?_, fun _ => rfl⟩
  · simpa using hout
  · simpa using hout
  · simpa using htext
  · simpa using hpad32
  · show _ = some (symAt (putSymbols out (clearContext s)) k)
    rw [symAt_putSymbols, List.getElem?_eq_getElem hk, Option.getD_some]
  · exact symAt_putSymbols_ge out (clearContext s) hk

end Sys2Proof.Proofs

namespace Sys2Proof.Proofs

open Sys2Proof.Machine Sys2Proof.Safety Sys2Proof.Laws

/-! ## The trie nodes that codes need (R277) -/

theorem mem_codeSteps {c d : Bits} : d ∈ codeSteps c ↔ d ≠ [] ∧ d <+: c := by
  simp only [codeSteps, List.mem_map, List.mem_range]
  constructor
  · rintro ⟨i, hi, rfl⟩
    exact ⟨List.ne_nil_of_length_pos (by rw [List.length_take]; omega), List.take_prefix _ _⟩
  · rintro ⟨hne, hd⟩
    have hpos := List.length_pos_iff.2 hne
    have hle := hd.length_le
    exact ⟨d.length - 1, by omega, by rw [Nat.sub_add_cancel hpos, ← List.prefix_iff_eq_take.1 hd]⟩

/-- The nodes of a table's trie are the non-empty prefixes of its codes. -/
theorem mem_flatMap_codeSteps {codes : List Bits} {d : Bits} :
    d ∈ codes.flatMap codeSteps ↔ d ≠ [] ∧ ∃ c ∈ codes, d <+: c := by
  simp only [List.mem_flatMap, mem_codeSteps]
  exact ⟨fun ⟨c, hc, hne, hd⟩ => ⟨hne, c, hc, hd⟩, fun ⟨hne, c, hc, hd⟩ => ⟨c, hc, hne, hd⟩⟩

theorem trieSize_eq_card (codes : List Bits) : trieSize codes = 1 + (codes.flatMap codeSteps).toFinset.card := by
  rw [trieSize, List.card_toFinset]

theorem trieSize_le_of_subset {codes codes' : List Bits} (h : codes.flatMap codeSteps ⊆ codes'.flatMap codeSteps) :
    trieSize codes ≤ trieSize codes' := by
  rw [trieSize_eq_card, trieSize_eq_card]
  exact Nat.add_le_add_left (Finset.card_le_card fun d hd => List.mem_toFinset.2 (h (List.mem_toFinset.1 hd))) 1

theorem trieSize_concat (codes : List Bits) (c : Bits) : trieSize (codes ++ [c]) = trieSize (c :: codes) := by
  rw [trieSize_eq_card, trieSize_eq_card,
    List.toFinset_eq_of_perm _ _ ((List.perm_append_singleton c codes).flatMap_right codeSteps)]

theorem codeSteps_concat (c : Bits) (b : Bool) : codeSteps (c ++ [b]) = codeSteps c ++ [c ++ [b]] := by
  simp only [codeSteps, List.length_append, List.length_singleton, List.range_succ, List.map_append, List.map_singleton]
  congr 1
  · exact List.map_congr_left fun i hi => List.take_append_of_le_length (List.mem_range.1 hi)
  · rw [List.take_of_length_le (by simp)]

theorem toFinset_codeSteps_concat (codes : List Bits) (c : Bits) (b : Bool) :
    (((c ++ [b]) :: codes).flatMap codeSteps).toFinset = insert (c ++ [b]) ((c :: codes).flatMap codeSteps).toFinset := by
  ext d
  simp only [List.flatMap_cons, codeSteps_concat, List.mem_toFinset, List.mem_append, Finset.mem_insert,
    List.mem_singleton]
  tauto

/-- A path's next bit takes no node where the codes already pass one. -/
theorem trieSize_step_of_mem {codes : List Bits} {c : Bits} {b : Bool} (h : c ++ [b] ∈ codes.flatMap codeSteps) :
    trieSize ((c ++ [b]) :: codes) = trieSize (c :: codes) := by
  rw [trieSize_eq_card, toFinset_codeSteps_concat, Finset.insert_eq_of_mem, ← trieSize_eq_card]
  exact List.mem_toFinset.2 (List.mem_append_right _ h)

/-- It takes one more node where no code passes it yet. -/
theorem trieSize_step_of_notMem {codes : List Bits} {c : Bits} {b : Bool} (h : c ++ [b] ∉ codes.flatMap codeSteps) :
    trieSize ((c ++ [b]) :: codes) = trieSize (c :: codes) + 1 := by
  have hnew : c ++ [b] ∉ ((c :: codes).flatMap codeSteps).toFinset := by
    rw [List.mem_toFinset, List.flatMap_cons, List.mem_append, mem_codeSteps]
    rintro (⟨-, hprefix⟩ | hmem)
    · simpa using hprefix.length_le
    · exact h hmem
  rw [trieSize_eq_card, toFinset_codeSteps_concat, Finset.card_insert_of_notMem hnew, trieSize_eq_card, add_assoc]

/-! ## The insertion checks of R277, bit by bit -/

/-- The first failing check at bit `i` of the code `c` or past it. -/
def insertStatus (nodeMax : Nat) (codes : List Bits) (c : Bits) (i : Nat) : Option Status :=
  (List.range' i (c.length - i)).findSome? (insertCheck nodeMax codes c)

theorem insertStatus_length (nodeMax : Nat) (codes : List Bits) (c : Bits) :
    insertStatus nodeMax codes c c.length = none := by
  simp [insertStatus]

theorem insertStatus_append_cons (nodeMax : Nat) (codes : List Bits) (pre : Bits) (b : Bool) (c : Bits) :
    insertStatus nodeMax codes (pre ++ b :: c) pre.length =
      (insertCheck nodeMax codes (pre ++ b :: c) pre.length).or
        (insertStatus nodeMax codes ((pre ++ [b]) ++ c) (pre ++ [b]).length) := by
  simp only [insertStatus, List.append_assoc, List.singleton_append, List.length_append, List.length_cons,
    List.length_nil, Nat.zero_add, Nat.add_sub_cancel_left]
  rw [List.range'_succ, List.findSome?_cons, show pre.length + (c.length + 1) - (pre.length + 1) = c.length by omega]
  cases insertCheck nodeMax codes (pre ++ b :: c) pre.length <;> rfl

theorem insertStatus_eq_none_iff {nodeMax : Nat} {codes : List Bits} {c : Bits} :
    insertStatus nodeMax codes c 0 = none ↔ ∀ i < c.length, insertCheck nodeMax codes c i = none := by
  simp [insertStatus, List.findSome?_eq_none_iff]

theorem insertCheck_of_mem {codes : List Bits} {c : Bits} {i : Nat} (nodeMax : Nat)
    (h : c.take (i + 1) ∈ codes.flatMap codeSteps) :
    insertCheck nodeMax codes c i =
      if i + 1 = c.length ∨ c.take (i + 1) ∈ codes then some .malformedContainer else none := by
  rw [insertCheck, if_pos (List.contains_iff_mem.2 h)]
  simp only [List.contains_iff_mem]

theorem insertCheck_of_notMem {codes : List Bits} {c : Bits} {i : Nat} (nodeMax : Nat)
    (h : c.take (i + 1) ∉ codes.flatMap codeSteps) :
    insertCheck nodeMax codes c i =
      if trieSize (c.take i :: codes) = nodeMax then some .capacityExceeded else none := by
  rw [insertCheck, if_neg (mt List.contains_iff_mem.1 h)]

theorem take_append_cons (pre : Bits) (b : Bool) (c : Bits) : (pre ++ b :: c).take (pre.length + 1) = pre ++ [b] := by
  simp [List.take_append]

theorem exists_take_succ {c : Bits} {i : Nat} (h : i < c.length) : ∃ b, c.take (i + 1) = c.take i ++ [b] :=
  ⟨_, List.take_succ_eq_append_getElem h⟩

/-- A code that passes neither begins with nor is the beginning of an earlier one: the check at the last bit of the shorter finds
the other's node. -/
theorem apart_of_insertStatus_none {nodeMax : Nat} {codes : List Bits} {c : Bits} (hcodes : ∀ d ∈ codes, d ≠ []) (hc : c ≠ [])
    (h : insertStatus nodeMax codes c 0 = none) : ∀ d ∈ codes, ¬ d <+: c ∧ ¬ c <+: d := by
  rw [insertStatus_eq_none_iff] at h
  have hpass (x : Bits) (hne : x ≠ []) (hx : x <+: c) (hmem : x ∈ codes.flatMap codeSteps) : x ≠ c ∧ x ∉ codes := by
    have hpos := List.length_pos_iff.2 hne
    have hle := hx.length_le
    have htake : c.take (x.length - 1 + 1) = x := by rw [Nat.sub_add_cancel hpos, ← List.prefix_iff_eq_take.1 hx]
    have hi := h (x.length - 1) (by omega)
    rw [insertCheck_of_mem nodeMax (by rwa [htake]), htake, Nat.sub_add_cancel hpos] at hi
    split_ifs at hi with hfail
    exact ⟨fun heq => hfail (.inl (congrArg _ heq)), fun hcode => hfail (.inr hcode)⟩
  intro d hd
  refine ⟨fun hprefix => ?_, fun hprefix => ?_⟩
  · exact (hpass d (hcodes d hd) hprefix (mem_flatMap_codeSteps.2 ⟨hcodes d hd, d, hd, List.prefix_rfl⟩)).2 hd
  · exact (hpass c hc List.prefix_rfl (mem_flatMap_codeSteps.2 ⟨hc, d, hd, hprefix⟩)).1 rfl

/-- The nodes made up to each bit of a code that passes fit. -/
theorem trieSize_take_le {nodeMax : Nat} {codes : List Bits} {c : Bits} (hfits : trieSize codes ≤ nodeMax)
    (h : insertStatus nodeMax codes c 0 = none) (j : Nat) (hj : j ≤ c.length) : trieSize (c.take j :: codes) ≤ nodeMax := by
  rw [insertStatus_eq_none_iff] at h
  induction j with
  | zero => exact hfits
  | succ j ih =>
    have hprev := ih (by omega)
    have hcheck := h j (by omega)
    obtain ⟨b, htake⟩ := exists_take_succ (c := c) (i := j) (by omega)
    by_cases hmem : c.take (j + 1) ∈ codes.flatMap codeSteps
    · rw [htake] at hmem ⊢
      rwa [trieSize_step_of_mem hmem]
    · rw [insertCheck_of_notMem nodeMax hmem] at hcheck
      split_ifs at hcheck with hfull
      rw [htake] at hmem ⊢
      rw [trieSize_step_of_notMem hmem]
      omega

/-- A code passes its checks exactly when it is apart from the earlier ones and its nodes fit beside theirs. -/
theorem insertStatus_none_iff {nodeMax : Nat} {codes : List Bits} {c : Bits} (hcodes : ∀ d ∈ codes, d ≠ []) (hc : c ≠ [])
    (hfits : trieSize codes ≤ nodeMax) :
    insertStatus nodeMax codes c 0 = none ↔
      (∀ d ∈ codes, ¬ d <+: c ∧ ¬ c <+: d) ∧ trieSize (c :: codes) ≤ nodeMax := by
  refine ⟨fun h => ⟨apart_of_insertStatus_none hcodes hc h, ?_⟩, fun ⟨hapart, hroom⟩ => ?_⟩
  · simpa using trieSize_take_le hfits h c.length le_rfl
  rw [insertStatus_eq_none_iff]
  intro i hi
  by_cases hmem : c.take (i + 1) ∈ codes.flatMap codeSteps
  · rw [insertCheck_of_mem nodeMax hmem, if_neg]
    obtain ⟨-, d, hd, hprefix⟩ := mem_flatMap_codeSteps.1 hmem
    rintro (hlast | hcode)
    · rw [hlast, List.take_length] at hprefix
      exact (hapart d hd).2 hprefix
    · exact (hapart _ hcode).1 (List.take_prefix _ _)
  · obtain ⟨b, htake⟩ := exists_take_succ hi
    have hsteps : (c.take (i + 1) :: codes).flatMap codeSteps ⊆ (c :: codes).flatMap codeSteps := by
      intro d hd
      simp only [mem_flatMap_codeSteps, List.mem_cons, exists_eq_or_imp] at hd ⊢
      exact hd.imp_right (.imp_left fun hprefix => hprefix.trans (List.take_prefix _ _))
    have hle := trieSize_le_of_subset hsteps
    rw [insertCheck_of_notMem nodeMax hmem, if_neg]
    rw [htake] at hmem hle
    rw [trieSize_step_of_notMem hmem] at hle
    omega

/-! ## The entry checks of R276, entry by entry -/

/-- The status of the first failing entry of `es` after the entries `before`. -/
def tableStatusAfter (p : Params) (before es : List (Nat × Bits)) : Option Status :=
  (List.range es.length).findSome? (fun k => (es[k]?).bind (entryStatus p (before ++ es.take k)))

theorem tableStatus_eq_after (p : Params) (es : List (Nat × Bits)) : tableStatus p es = tableStatusAfter p [] es := rfl

theorem tableStatusAfter_cons (p : Params) (before : List (Nat × Bits)) (e : Nat × Bits) (es : List (Nat × Bits)) :
    tableStatusAfter p before (e :: es) = (entryStatus p before e).or (tableStatusAfter p (before ++ [e]) es) := by
  simp only [tableStatusAfter, List.length_cons, List.range_succ_eq_map, List.findSome?_cons, List.findSome?_map]
  cases h : entryStatus p before e <;> simp [h, Function.comp_def]

/-- The checks (e1) to (e5) of an entry, with (e5) the insertion's. -/
theorem entryStatus_eq (p : Params) (before : List (Nat × Bits)) (e : Nat × Bits) :
    entryStatus p before e =
      if p.symMax < e.1 then some .malformedContainer
      else if p.maxCodeLen < e.2.length then some .capacityExceeded
      else if p.lMax ≤ before.length then some .capacityExceeded
      else if e.1 ∈ before.map (fun f => f.1) then some .malformedContainer
      else insertStatus p.nodeMax (before.map (fun f => f.2)) e.2 0 := by
  simp only [entryStatus, List.contains_iff_mem, insertStatus, Nat.sub_zero, List.range_eq_range']

theorem entryStatus_eq_none_iff {p : Params} {before : List (Nat × Bits)} {e : Nat × Bits} :
    entryStatus p before e = none ↔
      (e.1 ≤ p.symMax ∧ e.2.length ≤ p.maxCodeLen) ∧ before.length < p.lMax ∧ e.1 ∉ before.map (fun f => f.1) ∧
        insertStatus p.nodeMax (before.map (fun f => f.2)) e.2 0 = none := by
  rw [entryStatus_eq]
  split_ifs <;> simp_all

theorem tableStatus_concat_eq_none_iff {p : Params} {es : List (Nat × Bits)} {e : Nat × Bits} :
    tableStatus p (es ++ [e]) = none ↔ tableStatus p es = none ∧ entryStatus p es e = none := by
  simp only [tableStatus, List.findSome?_eq_none_iff, List.mem_range, List.length_append, List.length_singleton,
    Nat.forall_lt_succ_right]
  refine and_congr (forall₂_congr fun k hk => ?_) ?_
  · rw [List.getElem?_append_left hk, List.take_append_of_le_length hk.le]
  · simp

/-! ## The accepted tables -/

/-- What R276 and R277 ask of a table. -/
def Acceptable (p : Params) (es : List (Nat × Bits)) : Prop :=
  PrefixFree (es.map (fun e => e.2)) ∧ (es.map (fun e => e.1)).Nodup ∧ es.length ≤ p.lMax ∧
    (∀ e ∈ es, e.1 ≤ p.symMax ∧ e.2.length ≤ p.maxCodeLen) ∧ trieSize (es.map (fun e => e.2)) ≤ p.nodeMax

theorem acceptable_nil {p : Params} (h : p.legal = true) : Acceptable p [] := by
  simp only [Params.legal, Bool.and_eq_true, decide_eq_true_eq] at h
  refine ⟨.nil, .nil, Nat.zero_le _, by simp, ?_⟩
  show 1 ≤ 2 * p.lMax - 1
  omega

/-- An acceptable table with one more entry is acceptable exactly when the entry passes its checks. -/
theorem acceptable_concat_iff {p : Params} {es : List (Nat × Bits)} {e : Nat × Bits} (hcodes : ∀ f ∈ es ++ [e], f.2 ≠ []) :
    Acceptable p (es ++ [e]) ↔ Acceptable p es ∧ entryStatus p es e = none := by
  simp only [List.forall_mem_append, List.forall_mem_singleton] at hcodes
  obtain ⟨hes, he⟩ := hcodes
  have hmono : trieSize (es.map (fun f => f.2)) ≤ trieSize (e.2 :: es.map (fun f => f.2)) :=
    trieSize_le_of_subset (List.subset_append_right _ _)
  have hpass (hfits : trieSize (es.map (fun f => f.2)) ≤ p.nodeMax) :=
    insertStatus_none_iff (List.forall_mem_map.2 hes) he hfits
  rw [entryStatus_eq_none_iff]
  simp only [Acceptable, List.map_append, List.map_singleton, trieSize_concat, List.length_append, List.length_singleton,
    List.pairwise_append, List.nodup_append, List.forall_mem_append, List.forall_mem_singleton]
  constructor
  · rintro ⟨⟨hfree, -, hapart⟩, ⟨hnodup, -, hnew⟩, hlen, ⟨hlimits, hlimit⟩, hroom⟩
    exact ⟨⟨hfree, hnodup, by omega, hlimits, hmono.trans hroom⟩, hlimit, hlen, fun hmem => hnew _ hmem rfl,
      (hpass (hmono.trans hroom)).2 ⟨hapart, hroom⟩⟩
  · rintro ⟨⟨hfree, hnodup, -, hlimits, hfits⟩, hlimit, hlen, hnew, hstatus⟩
    obtain ⟨hapart, hroom⟩ := (hpass hfits).1 hstatus
    exact ⟨⟨hfree, List.pairwise_singleton _ _, hapart⟩, ⟨hnodup, List.nodup_singleton _, fun v hv hve => hnew (hve ▸ hv)⟩,
      hlen, ⟨hlimits, hlimit⟩, hroom⟩

theorem tableStatus_eq_none_iff {p : Params} {es : List (Nat × Bits)} (hlegal : p.legal = true)
    (hcodes : ∀ e ∈ es, e.2 ≠ []) : tableStatus p es = none ↔ Acceptable p es := by
  induction es using List.reverseRecOn with
  | nil => exact iff_of_true rfl (acceptable_nil hlegal)
  | append_singleton es e ih =>
    rw [tableStatus_concat_eq_none_iff, acceptable_concat_iff hcodes,
      ih fun f hf => hcodes f (List.mem_append_left _ hf)]

end Sys2Proof.Proofs

namespace Sys2Proof.Proofs

open Sys2Proof.Machine Sys2Proof.Safety Sys2Proof.Laws

/-! ## The decode trie by its paths (R277) -/

/-- The node that a path leads to from a trie node. -/
def trieAt : Trie → Bits → Trie
  | t, [] => t
  | t, b :: c => trieAt (trieChild b t) c

/-- What a trie node is, its children apart: absent, INTERNAL, or the leaf of a symbol. -/
def trieLabel : Trie → Option (Option Word)
  | .absent => none
  | .leaf v => some (some v)
  | .node _ _ => some none

@[simp] theorem trieAt_nil (t : Trie) : trieAt t [] = t := rfl

@[simp] theorem trieAt_cons (t : Trie) (b : Bool) (c : Bits) : trieAt t (b :: c) = trieAt (trieChild b t) c := rfl

theorem trieAt_append (t : Trie) (c d : Bits) : trieAt t (c ++ d) = trieAt (trieAt t c) d := by
  induction c generalizing t with
  | nil => rfl
  | cons b c ih => exact ih _

@[simp] theorem trieChild_absent (b : Bool) : trieChild b .absent = .absent := rfl

@[simp] theorem trieChild_leaf (b : Bool) (v : Word) : trieChild b (.leaf v) = .absent := rfl

@[simp] theorem trieAt_absent (c : Bits) : trieAt .absent c = .absent := by
  induction c with
  | nil => rfl
  | cons b c ih => exact ih

/-- A new INTERNAL node has no children. -/
theorem trieAt_fresh {c : Bits} (h : c ≠ []) : trieAt (.node .absent .absent) c = .absent := by
  cases c with
  | nil => exact absurd rfl h
  | cons b c => cases b <;> exact trieAt_absent c

@[simp] theorem trieLabel_eq_none {t : Trie} : trieLabel t = none ↔ t = .absent := by
  cases t <;> simp [trieLabel]

@[simp] theorem trieLabel_eq_leaf {t : Trie} {v : Word} : trieLabel t = some (some v) ↔ t = .leaf v := by
  cases t <;> simp [trieLabel]

theorem trieLabel_eq_inner {t : Trie} : trieLabel t = some none ↔ ∃ u0 u1, t = .node u0 u1 := by
  cases t <;> simp [trieLabel]

theorem trieChild_setChild (b b' : Bool) (u u0 u1 : Trie) :
    trieChild b' (trieSetChild b u (.node u0 u1)) = if b' = b then u else trieChild b' (.node u0 u1) := by
  cases b <;> cases b' <;> rfl

/-! ## An insertion adds the path of its code -/

/-- `t'` is `t` with the path `c` to a leaf of `v`: INTERNAL nodes on the way, everything else as before. -/
def PathAdded (t t' : Trie) (c : Bits) (v : Word) : Prop :=
  ∀ d, trieLabel (trieAt t' d) =
    if d = c then some (some v) else if d <+: c then some none else trieLabel (trieAt t d)

theorem pathAdded_leaf (v : Word) : PathAdded .absent (.leaf v) [] v := by
  rintro (_ | ⟨b, d⟩) <;> simp [trieLabel]

theorem PathAdded.of_fresh {t : Trie} {c : Bits} {v : Word} (h : PathAdded (.node .absent .absent) t c v) (hc : c ≠ []) :
    PathAdded .absent t c v := by
  intro d
  rw [h d]
  by_cases hd : d = []
  · simp [hd, hc.symm]
  · rw [trieAt_fresh hd, trieAt_absent]

theorem PathAdded.setChild {b : Bool} {u0 u1 u : Trie} {c : Bits} {v : Word}
    (h : PathAdded (trieChild b (.node u0 u1)) u c v) :
    PathAdded (.node u0 u1) (trieSetChild b u (.node u0 u1)) (b :: c) v := by
  rintro (_ | ⟨b', d⟩)
  · cases b <;> simp [trieSetChild, trieLabel]
  · rw [trieAt_cons, trieAt_cons, trieChild_setChild]
    by_cases hb : b' = b
    · subst hb
      simpa using h d
    · simp [hb]

/-! ## Insertion, case by case -/

/-- A run of checks and what it makes: the status of the first failing check, or a result with the property `P`. -/
def Outcome {α : Type} (P : α → Prop) (check : Option Status) (r : Except Status α) : Prop :=
  (∃ e, check = some e ∧ r = .error e) ∨ (∃ a, check = none ∧ r = .ok a ∧ P a)

theorem Outcome.map {α β : Type} {P : α → Prop} {Q : β → Prop} {check : Option Status} {r : Except Status α} {f : α → β}
    (h : Outcome P check r) (hf : ∀ a, P a → Q (f a)) : Outcome Q check (r.map f) := by
  obtain ⟨e, hcheck, rfl⟩ | ⟨a, hcheck, rfl, ha⟩ := h
  · exact .inl ⟨e, hcheck, rfl⟩
  · exact .inr ⟨f a, hcheck, rfl, hf a ha⟩

/-- Insertion below child `b`: the child's new subtree is put in its place. -/
def underChild (b : Bool) (t : Trie) (r : Trie × Nat) : Trie × Nat := (trieSetChild b r.1 t, r.2)

section
variable (nodeMax : Nat) (v : Word) {t : Trie} {b : Bool} {c : Bits}

theorem trieInsert_last (h : trieChild b t = .absent) {count : Nat} (hroom : count ≠ nodeMax) :
    trieInsert nodeMax v [b] t count = .ok (trieSetChild b (.leaf v) t, count + 1) := by
  simp [trieInsert, h, hroom]

theorem trieInsert_last_present (h : trieChild b t ≠ .absent) (count : Nat) :
    trieInsert nodeMax v [b] t count = .error .malformedContainer := by
  rw [trieInsert]
  cases hchild : trieChild b t with
  | absent => exact absurd hchild h
  | leaf w => rfl
  | node u0 u1 => rfl

theorem trieInsert_full (h : trieChild b t = .absent) (c : Bits) :
    trieInsert nodeMax v (b :: c) t nodeMax = .error .capacityExceeded := by
  cases c <;> simp [trieInsert, h]

theorem trieInsert_leaf {w : Word} (h : trieChild b t = .leaf w) (c : Bits) (count : Nat) :
    trieInsert nodeMax v (b :: c) t count = .error .malformedContainer := by
  cases c <;> simp [trieInsert, h]

theorem trieInsert_absent (h : trieChild b t = .absent) (hc : c ≠ []) {count : Nat} (hroom : count ≠ nodeMax) :
    trieInsert nodeMax v (b :: c) t count =
      (trieInsert nodeMax v c (.node .absent .absent) (count + 1)).map (underChild b t) := by
  obtain ⟨b', c', rfl⟩ := List.exists_cons_of_ne_nil hc
  rw [trieInsert]
  simp only [h, if_neg hroom]
  cases trieInsert nodeMax v (b' :: c') (.node .absent .absent) (count + 1) <;> rfl

theorem trieInsert_node {u0 u1 : Trie} (h : trieChild b t = .node u0 u1) (hc : c ≠ []) (count : Nat) :
    trieInsert nodeMax v (b :: c) t count =
      (trieInsert nodeMax v c (.node u0 u1) count).map (underChild b t) := by
  obtain ⟨b', c', rfl⟩ := List.exists_cons_of_ne_nil hc
  rw [trieInsert]
  simp only [h]
  cases trieInsert nodeMax v (b' :: c') (.node u0 u1) count <;> rfl

end

/-! ## Insertion fails by the first failing check of R277 -/

/-- `t` is the INTERNAL node at the path `pre` of a trie of `codes`: below it a node stands exactly where a code passes, and a leaf
exactly where a code ends. -/
structure NodeOf (codes : List Bits) (pre : Bits) (t : Trie) : Prop where
  inner : trieLabel t = some none
  present : ∀ d ≠ [], trieAt t d ≠ .absent ↔ pre ++ d ∈ codes.flatMap codeSteps
  ends : ∀ d ≠ [], (∃ v, trieAt t d = .leaf v) ↔ pre ++ d ∈ codes

theorem NodeOf.child_present {codes : List Bits} {pre : Bits} {t : Trie} (h : NodeOf codes pre t) {b : Bool} :
    trieChild b t ≠ .absent ↔ pre ++ [b] ∈ codes.flatMap codeSteps :=
  h.present [b] (by simp)

theorem NodeOf.child_leaf {codes : List Bits} {pre : Bits} {t : Trie} (h : NodeOf codes pre t) {b : Bool} :
    (∃ v, trieChild b t = .leaf v) ↔ pre ++ [b] ∈ codes :=
  h.ends [b] (by simp)

/-- Below a child stands what stands below its parent's path. -/
theorem NodeOf.of_child {codes : List Bits} {pre : Bits} {t u : Trie} (h : NodeOf codes pre t) {b : Bool}
    (hinner : trieLabel u = some none) (hsame : ∀ d ≠ [], trieAt u d = trieAt (trieChild b t) d) :
    NodeOf codes (pre ++ [b]) u where
  inner := hinner
  present d hd := by simpa [hsame d hd] using h.present (b :: d) (by simp)
  ends d hd := by simpa [hsame d hd] using h.ends (b :: d) (by simp)

section
variable {codes : List Bits} {pre : Bits} {t : Trie} {b : Bool} (ht : NodeOf codes pre t) (nodeMax : Nat)
include ht

/-- R277: where no node exists, one more must fit. -/
theorem NodeOf.insertCheck_absent (h : trieChild b t = .absent) (c : Bits) :
    insertCheck nodeMax codes (pre ++ b :: c) pre.length =
      if trieSize (pre :: codes) = nodeMax then some .capacityExceeded else none := by
  have hnew : pre ++ [b] ∉ codes.flatMap codeSteps := fun hmem => ht.child_present.2 hmem h
  rw [insertCheck_of_notMem nodeMax (take_append_cons pre b c ▸ hnew), List.take_left]

/-- R277: no code goes on from an earlier code's end. -/
theorem NodeOf.insertCheck_leaf {w : Word} (h : trieChild b t = .leaf w) (c : Bits) :
    insertCheck nodeMax codes (pre ++ b :: c) pre.length = some .malformedContainer := by
  have hends : pre ++ [b] ∈ codes := ht.child_leaf.1 ⟨w, h⟩
  have hold : pre ++ [b] ∈ codes.flatMap codeSteps := ht.child_present.1 (by simp [h])
  rw [insertCheck_of_mem nodeMax (take_append_cons pre b c ▸ hold), take_append_cons, if_pos (.inr hends)]

/-- R277: an INTERNAL node is an error at the last bit alone. -/
theorem NodeOf.insertCheck_node {u0 u1 : Trie} (h : trieChild b t = .node u0 u1) (c : Bits) :
    insertCheck nodeMax codes (pre ++ b :: c) pre.length = if c = [] then some .malformedContainer else none := by
  have hends : pre ++ [b] ∉ codes := mt ht.child_leaf.2 (by simp [h])
  have hold : pre ++ [b] ∈ codes.flatMap codeSteps := ht.child_present.1 (by simp [h])
  rw [insertCheck_of_mem nodeMax (take_append_cons pre b c ▸ hold), take_append_cons]
  simp [hends]

end

/-- What a successful insertion of the code `pre ++ c` makes of the node at `pre`: the rest of the code's path, with the code's
nodes counted. -/
def Inserted (codes : List Bits) (pre : Bits) (t : Trie) (v : Word) (c : Bits) (r : Trie × Nat) : Prop :=
  PathAdded t r.1 c v ∧ r.2 = trieSize ((pre ++ c) :: codes)

theorem Inserted.underChild {codes : List Bits} {pre c : Bits} {b : Bool} {u0 u1 : Trie} {v : Word} {r : Trie × Nat}
    (h : Inserted codes (pre ++ [b]) (trieChild b (.node u0 u1)) v c r) :
    Inserted codes pre (.node u0 u1) v (b :: c) (underChild b (.node u0 u1) r) :=
  ⟨h.1.setChild, h.2.trans (by rw [List.append_assoc, List.singleton_append])⟩

/-- Insertion fails exactly by the first failing check of R277, and else adds the code's path and its nodes. -/
theorem trieInsert_outcome (nodeMax : Nat) (v : Word) (codes : List Bits) {c : Bits} (hc : c ≠ []) {pre : Bits} {t : Trie}
    (ht : NodeOf codes pre t) :
    Outcome (Inserted codes pre t v c) (insertStatus nodeMax codes (pre ++ c) pre.length)
      (trieInsert nodeMax v c t (trieSize (pre :: codes))) := by
  induction c generalizing pre t with
  | nil => exact absurd rfl hc
  | cons b c ih =>
    obtain ⟨u0, u1, rfl⟩ := trieLabel_eq_inner.1 ht.inner
    rw [insertStatus_append_cons]
    cases hchild : trieChild b (.node u0 u1) with
    | absent =>
      have hcount := trieSize_step_of_notMem fun hmem => ht.child_present.2 hmem hchild
      rw [ht.insertCheck_absent nodeMax hchild]
      by_cases hfull : trieSize (pre :: codes) = nodeMax
      · rw [if_pos hfull, hfull, trieInsert_full nodeMax v hchild]
        exact .inl ⟨_, rfl, rfl⟩
      rw [if_neg hfull, Option.none_or]
      by_cases hlast : c = []
      · subst hlast
        rw [trieInsert_last nodeMax v hchild hfull, ← hcount, List.append_nil, insertStatus_length]
        exact .inr ⟨_, rfl, rfl, Inserted.underChild (r := (.leaf v, trieSize ((pre ++ [b]) :: codes)))
          ⟨hchild ▸ pathAdded_leaf v, by rw [List.append_nil]⟩⟩
      · rw [trieInsert_absent nodeMax v hchild hlast hfull, ← hcount]
        have hfresh : NodeOf codes (pre ++ [b]) (.node .absent .absent) :=
          ht.of_child rfl fun d hd => by rw [hchild, trieAt_absent, trieAt_fresh hd]
        exact (ih hlast hfresh).map fun r ⟨hpath, hnodes⟩ => .underChild ⟨hchild ▸ hpath.of_fresh hlast, hnodes⟩
    | leaf w =>
      rw [ht.insertCheck_leaf nodeMax hchild, trieInsert_leaf nodeMax v hchild]
      exact .inl ⟨_, rfl, rfl⟩
    | node w0 w1 =>
      rw [ht.insertCheck_node nodeMax hchild]
      by_cases hlast : c = []
      · subst hlast
        rw [if_pos rfl, trieInsert_last_present nodeMax v (by simp [hchild])]
        exact .inl ⟨_, rfl, rfl⟩
      · have hold : pre ++ [b] ∈ codes.flatMap codeSteps := ht.child_present.1 (by simp [hchild])
        rw [if_neg hlast, Option.none_or, trieInsert_node nodeMax v hchild hlast, ← trieSize_step_of_mem hold]
        have hbelow : NodeOf codes (pre ++ [b]) (.node w0 w1) := ht.of_child rfl fun d _ => by rw [hchild]
        exact (ih hlast hbelow).map fun r hr => .underChild (hchild ▸ hr)

/-! ## The trie of a table (R276) -/

/-- `root` is the trie of a table: at the end of each entry's code stands the leaf of its symbol. -/
structure TrieOf (es : List (Nat × Bits)) (root : Trie) : Prop where
  codes_ne_nil : ∀ e ∈ es, e.2 ≠ []
  node : NodeOf (es.map (fun e => e.2)) [] root
  symbol : ∀ e ∈ es, trieAt root e.2 = .leaf (Word.ofNat e.1)

theorem trieOf_nil : TrieOf [] (.node .absent .absent) where
  codes_ne_nil := by simp
  node := ⟨rfl, fun d hd => by simp [trieAt_fresh hd], fun d hd => by simp [trieAt_fresh hd]⟩
  symbol := by simp

theorem TrieOf.ne_nil_of_mem {es : List (Nat × Bits)} {root : Trie} (h : TrieOf es root) :
    ∀ d ∈ es.map (fun e => e.2), d ≠ [] :=
  List.forall_mem_map.2 h.codes_ne_nil

theorem NodeOf.concat {codes : List Bits} {root root' : Trie} {c : Bits} {v : Word} (h : NodeOf codes [] root) (hc : c ≠ [])
    (hapart : ∀ d ∈ codes, ¬ d <+: c ∧ ¬ c <+: d) (hadd : PathAdded root root' c v) : NodeOf (codes ++ [c]) [] root' where
  inner := by simpa [hc.symm] using hadd []
  present d hd := by
    have hold := h.present d hd
    have hsteps : d ∈ (codes ++ [c]).flatMap codeSteps ↔ d ∈ codes.flatMap codeSteps ∨ d <+: c := by
      simp [mem_codeSteps, hd]
    rw [Ne, ← trieLabel_eq_none, hadd d, List.nil_append, hsteps]
    by_cases hdc : d = c
    · simp [hdc]
    by_cases hprefix : d <+: c
    · simp [hdc, hprefix]
    · simpa [hdc, hprefix] using hold
  ends d hd := by
    have hold := h.ends d hd
    simp only [← trieLabel_eq_leaf, hadd d, List.nil_append, List.mem_append, List.mem_singleton] at hold ⊢
    by_cases hdc : d = c
    · simp [hdc]
    by_cases hprefix : d <+: c
    · have hcode : d ∉ codes := fun hmem => (hapart d hmem).1 hprefix
      simp [hdc, hprefix, hcode]
    · simpa [hdc, hprefix] using hold

/-- An entry whose code is apart from the earlier ones adds its path to the trie. -/
theorem TrieOf.concat {es : List (Nat × Bits)} {root root' : Trie} (h : TrieOf es root) {e : Nat × Bits} (he : e.2 ≠ [])
    (hapart : ∀ d ∈ es.map (fun e => e.2), ¬ d <+: e.2 ∧ ¬ e.2 <+: d) (hadd : PathAdded root root' e.2 (Word.ofNat e.1)) :
    TrieOf (es ++ [e]) root' where
  codes_ne_nil := List.forall_mem_append.2 ⟨h.codes_ne_nil, List.forall_mem_singleton.2 he⟩
  node := by
    rw [List.map_append, List.map_singleton]
    exact h.node.concat he hapart hadd
  symbol := by
    refine List.forall_mem_append.2 ⟨fun f hf => ?_, List.forall_mem_singleton.2 ?_⟩
    · have hapart := (hapart f.2 (List.mem_map_of_mem (f := fun e => e.2) hf)).1
      have hne : f.2 ≠ e.2 := fun heq => hapart (heq ▸ List.prefix_rfl)
      rw [← trieLabel_eq_leaf, hadd, if_neg hne, if_neg hapart, trieLabel_eq_leaf]
      exact h.symbol f hf
    · rw [← trieLabel_eq_leaf, hadd, if_pos rfl]

/-! ## BuildTrie fails by the first failing entry check -/

/-- One entry of BuildTrie: its checks (e1) to (e4), then its insertion. -/
def addEntry (p : Params) (e : Nat × Bits) (seen : List Nat) (t : Trie) (count : Nat) : Except Status (Trie × Nat) :=
  if p.symMax < e.1 then .error .malformedContainer
  else if p.maxCodeLen < e.2.length then .error .capacityExceeded
  else if p.lMax ≤ seen.length then .error .capacityExceeded
  else if e.1 ∈ seen then .error .malformedContainer
  else trieInsert p.nodeMax (Word.ofNat e.1) e.2 t count

theorem addEntries_cons (p : Params) (e : Nat × Bits) (es : List (Nat × Bits)) (seen : List Nat) (t : Trie) (count : Nat) :
    addEntries p (e :: es) seen t count =
      (addEntry p e seen t count).bind fun r => addEntries p es (e.1 :: seen) r.1 r.2 := by
  simp only [addEntries, addEntry, List.contains_iff_mem]
  split_ifs
  case neg => cases trieInsert p.nodeMax (Word.ofNat e.1) e.2 t count <;> rfl
  all_goals rfl

/-- An entry fails exactly by its first failing check. -/
theorem addEntry_outcome (p : Params) {before : List (Nat × Bits)} {t : Trie} (ht : TrieOf before t) {e : Nat × Bits}
    (he : e.2 ≠ []) :
    Outcome (Inserted (before.map (fun e => e.2)) [] t (Word.ofNat e.1) e.2) (entryStatus p before e)
      (addEntry p e (before.map (fun e => e.1)).reverse t (trieSize (before.map (fun e => e.2)))) := by
  simp only [entryStatus_eq, addEntry, List.length_reverse, List.length_map, List.mem_reverse]
  split_ifs
  case neg => exact trieInsert_outcome p.nodeMax (Word.ofNat e.1) _ he ht.node
  all_goals exact .inl ⟨_, rfl, rfl⟩

/-- BuildTrie goes on from the trie of the entries `before`: it fails exactly by the first failing check of R276. -/
theorem addEntries_outcome (p : Params) {before : List (Nat × Bits)} {t : Trie} (ht : TrieOf before t)
    {es : List (Nat × Bits)} (hcodes : ∀ e ∈ es, e.2 ≠ []) :
    Outcome (TrieOf (before ++ es)) (tableStatusAfter p before es)
      (addEntries p es (before.map (fun e => e.1)).reverse t (trieSize (before.map (fun e => e.2)))) := by
  induction es generalizing before t with
  | nil => exact .inr ⟨t, rfl, rfl, by rwa [List.append_nil]⟩
  | cons e es ih =>
    obtain ⟨he, hcodes⟩ := List.forall_mem_cons.1 hcodes
    rw [tableStatusAfter_cons, addEntries_cons]
    obtain ⟨st, hstatus, hr⟩ | ⟨⟨t', count⟩, hstatus, hr, hadd, hcount⟩ := addEntry_outcome p ht he
    · rw [hstatus, hr]
      exact .inl ⟨st, rfl, rfl⟩
    · have hins := (entryStatus_eq_none_iff.1 hstatus).2.2.2
      have ht' := ht.concat he (apart_of_insertStatus_none ht.ne_nil_of_mem he hins) hadd
      have hrest := ih ht' hcodes
      have hcount : count = trieSize (e.2 :: before.map (fun e => e.2)) := hcount
      rw [hstatus, hr, Option.none_or]
      simpa [trieSize_concat, Except.bind, hcount] using hrest

/-- BuildTrie makes the trie of the table, or fails by the table's first failing check (R276, R277). -/
theorem buildTrie_outcome (p : Params) {es : List (Nat × Bits)} (hcodes : ∀ e ∈ es, e.2 ≠ []) :
    Outcome (TrieOf es) (tableStatus p es) (buildTrie p es) := by
  rw [tableStatus_eq_after]
  exact addEntries_outcome p trieOf_nil hcodes

theorem buildTrie_of_tableStatus_some {p : Params} {es : List (Nat × Bits)} (hcodes : ∀ e ∈ es, e.2 ≠ []) {st : Status}
    (h : tableStatus p es = some st) : buildTrie p es = .error st := by
  obtain ⟨e, hstatus, hr⟩ | ⟨root, hstatus, -, -⟩ := buildTrie_outcome p hcodes
  · rw [hr, Option.some.inj (hstatus.symm.trans h)]
  · rw [h] at hstatus
    cases hstatus

theorem exists_buildTrie_of_tableStatus_none {p : Params} {es : List (Nat × Bits)} (hcodes : ∀ e ∈ es, e.2 ≠ [])
    (h : tableStatus p es = none) : ∃ root, buildTrie p es = .ok root := by
  obtain ⟨e, hstatus, -⟩ | ⟨root, -, hr, -⟩ := buildTrie_outcome p hcodes
  · rw [h] at hstatus
    cases hstatus
  · exact ⟨root, hr⟩

theorem trieOf_of_buildTrie_ok {p : Params} {es : List (Nat × Bits)} {root : Trie} (hcodes : ∀ e ∈ es, e.2 ≠ [])
    (h : buildTrie p es = .ok root) : TrieOf es root := by
  obtain ⟨e, -, hr⟩ | ⟨root', -, hr, hroot⟩ := buildTrie_outcome p hcodes
  · rw [h] at hr
    cases hr
  · rw [h] at hr
    cases hr
    exact hroot

/-- Settles O42: BuildTrie succeeds where no check fails, which is on the acceptable tables. -/
theorem acceptedTablesArePrefixFree : Obligations.AcceptedTablesArePrefixFree := by
  intro p es hlegal hcodes
  show _ ↔ Acceptable p es
  rw [← tableStatus_eq_none_iff hlegal hcodes]
  obtain ⟨e, hstatus, hr⟩ | ⟨root, hstatus, hr, -⟩ := buildTrie_outcome p hcodes
  · simp [hstatus, hr]
  · simp [hstatus, hr]

/-! ## The walk and the greedy matcher (R279, R280, R284) -/

theorem matchCode_eq_some {es : List (Nat × Bits)} {cand : Bits} {v : Word} (h : matchCode es cand = some v) :
    ∃ e ∈ es, e.2 = cand ∧ Word.ofNat e.1 = v := by
  unfold matchCode at h
  split at h
  · rename_i e hfind
    exact ⟨e, List.mem_of_find?_eq_some hfind, by simpa using List.find?_some hfind, Option.some.inj h⟩
  · cases h

theorem matchCode_eq_none_iff {es : List (Nat × Bits)} {cand : Bits} :
    matchCode es cand = none ↔ cand ∉ es.map (fun e => e.2) := by
  have hfind : matchCode es cand = none ↔ es.find? (fun e => e.2 == cand) = none := by
    unfold matchCode
    split <;> simp [*]
  rw [hfind, List.find?_eq_none, List.mem_map]
  simp only [beq_iff_eq, not_exists, not_and]

/-- A candidate matches exactly where the trie has a leaf, with the leaf's symbol. -/
theorem TrieOf.matchCode_eq {es : List (Nat × Bits)} {root : Trie} (h : TrieOf es root) {cand : Bits} (hne : cand ≠ []) :
    matchCode es cand = (trieLabel (trieAt root cand)).getD none := by
  have hends := h.node.ends cand hne
  cases hmatch : matchCode es cand with
  | some v =>
    obtain ⟨e, he, rfl, rfl⟩ := matchCode_eq_some hmatch
    rw [h.symbol e he]
    rfl
  | none =>
    have hleaf := mt hends.1 (matchCode_eq_none_iff.1 hmatch)
    cases htrie : trieAt root cand with
    | absent => rfl
    | leaf v => exact absurd ⟨v, htrie⟩ hleaf
    | node u0 u1 => rfl

/-- A candidate that no code begins with never matches: the greedy matcher fails when the bits are used up. -/
theorem TrieOf.greedyMatch_absent {es : List (Nat × Bits)} {root : Trie} (h : TrieOf es root) {cand : Bits} (hne : cand ≠ [])
    (habsent : trieAt root cand = .absent) (bits : Bits) : greedyMatch es cand bits = none := by
  induction bits generalizing cand with
  | nil => cases cand with
    | nil => exact absurd rfl hne
    | cons => rfl
  | cons b bits ih =>
    have hnext : trieAt root (cand ++ [b]) = .absent := by rw [trieAt_append, habsent, trieAt_absent]
    rw [greedyMatch, h.matchCode_eq (by simp), hnext]
    exact ih (by simp) hnext

/-- The walk at the node of the candidate goes as the matcher does. -/
theorem TrieOf.walkBits_eq_greedyMatch {es : List (Nat × Bits)} {root : Trie} (h : TrieOf es root) (bits : Bits) {cand : Bits}
    {cur : Option Trie} (hcur : cur = none ↔ cand = []) (hat : cur.getD root = trieAt root cand) :
    walkBits root cur bits = greedyMatch es cand bits := by
  induction bits generalizing cand cur with
  | nil =>
    obtain _ | ⟨b, c⟩ := cand
    · obtain rfl := hcur.2 rfl
      rfl
    · obtain ⟨t, rfl⟩ := Option.ne_none_iff_exists'.1 (mt hcur.1 (by simp))
      rfl
  | cons b bits ih =>
    have hchild : trieChild b (cur.getD root) = trieAt root (cand ++ [b]) := by rw [hat, trieAt_append]; rfl
    have hstart : walkBits root none bits = greedyMatch es [] bits := ih (by simp) rfl
    rw [walkBits, greedyMatch, h.matchCode_eq (by simp), hchild]
    cases hnext : trieAt root (cand ++ [b]) with
    | absent => exact (h.greedyMatch_absent (by simp) hnext bits).symm
    | leaf v => simp only [hstart]; rfl
    | node u0 u1 => exact ih (by simp) hnext.symm

/-- Settles O43: the walk from the root against the matcher with no candidate. -/
theorem walkAgreesWithGreedyMatcher : Obligations.WalkAgreesWithGreedyMatcher :=
  fun _ _ _ bits hcodes hbuild => (trieOf_of_buildTrie_ok hcodes hbuild).walkBits_eq_greedyMatch bits (by simp) rfl

end Sys2Proof.Proofs

namespace Sys2Proof.Proofs

open Sys2Proof.Machine Sys2Proof.Safety Sys2Proof.Laws

/-! ## DECODE's checks after the header (R271, R275 to R281) -/

theorem decodeTable_of_parse_none {p : Params} {text : List Byte} (h : parseTable text = none) :
    decodeTable p text = .error .malformedContainer := by
  simp [decodeTable, h]

/-- R123: a parsed entry has a code. -/
theorem codes_ne_nil_of_parse {text : List Byte} {es : List (Nat × Bits)} (h : parseTable text = some es) :
    ∀ e ∈ es, e.2 ≠ [] := by
  obtain ⟨_, -, -, -, hcodes, -, -⟩ := (parserAcceptsTheGrammar text es).1 h
  exact hcodes

/-- Settles O39: the table's status by `buildTrie_outcome`, then the payload's checks as the model runs them. -/
theorem decodePayloadChecks : Obligations.DecodePayloadChecks := by
  intro s l pad b1 b2 b3 b4 text payload hb hfits hslice hlen
  obtain ⟨t, hexec, herr⟩ := exec_decode_err s
  rw [(operand_latched hb).1, decodeResult_of_bytSlice hfits hslice hlen, decodeBody_append] at herr
  refine ⟨t, hexec, fun hparse => ?_, fun es e hparse hstatus => ?_, fun es hparse hstatus => ?_⟩
  · rw [herr, decodeTable_of_parse_none hparse]
    rfl
  · rw [herr, decodeTable_of_parse hparse, buildTrie_of_tableStatus_some (codes_ne_nil_of_parse hparse) hstatus]
    rfl
  · obtain ⟨root, hbuild⟩ := exists_buildTrie_of_tableStatus_none (codes_ne_nil_of_parse hparse) hstatus
    rw [decodeTable_of_parse hparse, hbuild, Except.bind, outcomeStatus_map, decodePayload] at herr
    refine ⟨root, hbuild, herr.trans ?_⟩
    split_ifs
    · rfl
    · cases walkBits root none ((unpackBits payload).take (8 * payload.length - pad.toNat)) with
      | none => rfl
      | some out => simp only; split_ifs <;> rfl

end Sys2Proof.Proofs

namespace Sys2Proof.Proofs

open Sys2Proof.Machine Sys2Proof.Safety Sys2Proof.Laws

/-! ## The paths of a tree's codes end at different nodes -/

theorem descend_concat (ns : List Node) (n : Nat) (c : Bits) (b : Bool) :
    descend ns n (c ++ [b]) =
      if b then (nodeGet ns (descend ns n c)).right else (nodeGet ns (descend ns n c)).left := by
  induction c generalizing n with
  | nil => rfl
  | cons b' c ih => exact ih _

/-- A path from `n` that has an INTERNAL node before each of its bits. -/
def PassesInner (ns : List Node) (n : Nat) (d : Bits) : Prop :=
  ∀ x b, x ++ [b] <+: d → (nodeGet ns (descend ns n x)).kind = .internal

theorem PassesInner.of_prefix {ns : List Node} {n : Nat} {c d : Bits} (h : PassesInner ns n d) (hc : c <+: d) :
    PassesInner ns n c :=
  fun x b hx => h x b (hx.trans hc)

theorem PassesInner.last {ns : List Node} {n : Nat} {x : Bits} {b : Bool} (h : PassesInner ns n (x ++ [b])) :
    (nodeGet ns (descend ns n x)).kind = .internal :=
  h x b List.prefix_rfl

theorem PathToLeaf.passesInner {ns : List Node} {n : Nat} {c : Bits} {v : Word} (h : PathToLeaf ns n c v) :
    PassesInner ns n c := by
  induction h with
  | here _ => intro x b hx; simp at hx
  | step b hinner _ ih =>
    rintro (_ | ⟨b', x⟩) b'' hx
    · exact hinner
    · rw [List.cons_append, List.cons_prefix_cons] at hx
      obtain ⟨rfl, hx⟩ := hx
      exact ih x b'' hx

theorem isParent_descend_concat {ns : List Node} {n : Nat} {x : Bits} {b : Bool} (h : PassesInner ns n (x ++ [b])) :
    isParent ns (descend ns n (x ++ [b])) (descend ns n x) = true := by
  rw [isParent_iff, descend_concat]
  exact ⟨h.last, by cases b <;> simp⟩

/-- Every bit of a path leads to a lower node (R55). -/
theorem descend_lt {ns : List Node} {leaves n : Nat} (ht : TreeOk ns leaves) {d : Bits} (h : PassesInner ns n d)
    (hd : d ≠ []) : descend ns n d < n := by
  induction d using List.reverseRecOn with
  | nil => exact absurd rfl hd
  | append_singleton x b ih =>
    obtain ⟨-, -, hleft, hright, -⟩ := treeOk_inner ht h.last
    have hchild : descend ns n (x ++ [b]) < descend ns n x := by rw [descend_concat]; cases b <;> assumption
    by_cases hx : x = []
    · subst hx
      exact hchild
    · exact hchild.trans (ih (h.of_prefix (List.prefix_append x [b])) hx)

/-- Different paths from the root end at different nodes: a node has one parent, and two different children. -/
theorem descend_injective {ns : List Node} {leaves : Nat} (ht : TreeOk ns leaves) {d d' : Bits}
    (h : PassesInner ns (ns.length - 1) d) (h' : PassesInner ns (ns.length - 1) d')
    (heq : descend ns (ns.length - 1) d = descend ns (ns.length - 1) d') : d = d' := by
  induction d using List.reverseRecOn generalizing d' with
  | nil =>
    by_contra hne
    exact (descend_lt ht h' (Ne.symm hne)).ne heq.symm
  | append_singleton x b ih =>
    obtain rfl | ⟨y, b', rfl⟩ := List.eq_nil_or_concat' d'
    · exact absurd heq (descend_lt ht h (by simp)).ne
    have hparent := isParent_descend_concat h
    have hparent' := isParent_descend_concat h'
    have hsame := treeOk_parent_unique ht (descend_lt ht h (by simp)) hparent (heq ▸ hparent')
    obtain rfl := ih (h.of_prefix (List.prefix_append x [b])) (h'.of_prefix (List.prefix_append y [b'])) hsame
    obtain ⟨-, hne, -⟩ := treeOk_inner ht h.last
    rw [descend_concat, descend_concat] at heq
    congr 2
    match b, b' with
    | false, false => rfl
    | true, true => rfl
    | false, true => exact absurd heq hne
    | true, false => exact absurd heq.symm hne

/-- R317: a decode trie needs no more nodes than the tree its codes come from. -/
theorem trieSize_codeTable_le {ns : List Node} {leaves : Nat} (ht : TreeOk ns leaves) (hL : 1 ≤ leaves) :
    trieSize ((codeTable ns).map (fun e => e.bits)) ≤ ns.length := by
  have hpos := lt_of_lt_of_le hL (treeOk_leaves_le ht)
  have hsteps : ∀ d ∈ ((codeTable ns).map (fun e => e.bits)).flatMap codeSteps,
      d ≠ [] ∧ PassesInner ns (ns.length - 1) d := by
    intro d hd
    obtain ⟨hne, c, hc, hprefix⟩ := mem_flatMap_codeSteps.1 hd
    obtain ⟨e, he, rfl⟩ := List.mem_map.1 hc
    exact ⟨hne, (pathToLeaf_of_mem_codeTable ht hL he).passesInner.of_prefix hprefix⟩
  have hcard : (((codeTable ns).map (fun e => e.bits)).flatMap codeSteps).toFinset.card ≤
      (Finset.range (ns.length - 1)).card := by
    refine Finset.card_le_card_of_injOn (descend ns (ns.length - 1)) (fun d hd => ?_) (fun d hd d' hd' heq => ?_)
    · obtain ⟨hne, hpass⟩ := hsteps d (List.mem_toFinset.1 hd)
      exact Finset.mem_coe.2 (Finset.mem_range.2 (descend_lt ht hpass hne))
    · exact descend_injective ht (hsteps d (List.mem_toFinset.1 hd)).2 (hsteps d' (List.mem_toFinset.1 hd')).2 heq
  rw [Finset.card_range] at hcard
  rw [trieSize_eq_card]
  omega

/-! ## A generated table is acceptable -/

/-- The entries that a code table's text spells. -/
def tableEntries (ct : List CodeEntry) : List (Nat × Bits) := ct.map (fun e => (e.sym.toNat, e.bits))

/-- The code table of a tree over loaded leaves passes the checks of R276 and R277. -/
theorem acceptable_codeTable {p : Params} {ns : List Node} {leaves total : Nat} (hlegal : p.legal = true)
    (hleaves : LeavesOk p (ns.take leaves) total) (ht : TreeOk ns leaves) : Acceptable p (tableEntries (codeTable ns)) := by
  obtain ⟨hpos, hmax, hlimits, hasc, -⟩ := hleaves
  rw [List.length_take_of_le (treeOk_leaves_le ht)] at hpos hmax
  have hlMax : 2 ≤ p.lMax := by
    simp only [Params.legal, Bool.and_eq_true, decide_eq_true_eq] at hlegal
    omega
  have hperm := codeTable_syms_perm ht hpos
  have hcodes : (tableEntries (codeTable ns)).map (fun e => e.2) = (codeTable ns).map (fun e => e.bits) := by
    simp [tableEntries]
  have hsyms : (tableEntries (codeTable ns)).map (fun e => e.1) = ((codeTable ns).map (fun e => e.sym)).map BitVec.toNat := by
    simp [tableEntries]
  rw [Acceptable, hcodes, hsyms]
  refine ⟨?_, ?_, ?_, ?_, ?_⟩
  · exact List.pairwise_map.2 ((codeTable_pairwise_partsLeftOf ns).imp PartsLeftOf.not_prefix)
  · rw [(hperm.map BitVec.toNat).nodup_iff, List.map_map]
    exact List.pairwise_map.2 (hasc.imp fun hlt => hlt.ne)
  · rwa [tableEntries, List.length_map, codeTable_length ht hpos]
  · refine List.forall_mem_map.2 fun e he => ⟨?_, ?_⟩
    · obtain ⟨r, hr, hsym⟩ := List.mem_map.1 (hperm.mem_iff.1 (List.mem_map_of_mem (f := fun e => e.sym) he))
      exact hsym ▸ (hlimits r hr).2.1
    · have hlen := (codeTable_bits_length ht hpos he).2
      simp only [Params.maxCodeLen]
      omega
  · obtain ⟨hlen, -⟩ := id ht
    have hsize := trieSize_codeTable_le ht hpos
    simp only [Params.nodeMax]
    split_ifs at hlen <;> omega

/-! ## The walk of encoded symbols -/

/-- A walk over a code's bits emits the code's symbol and starts again at the root (R280). -/
theorem walkBits_code_append {root : Trie} {v : Word} {c : Bits} (hc : c ≠ []) {cur : Option Trie}
    (h : trieAt (cur.getD root) c = .leaf v) (bits : Bits) :
    walkBits root cur (c ++ bits) = (walkBits root none bits).map (List.cons v) := by
  induction c generalizing cur with
  | nil => exact absurd rfl hc
  | cons b c ih =>
    rw [trieAt_cons] at h
    rw [List.cons_append, walkBits]
    by_cases hlast : c = []
    · subst hlast
      rw [trieAt_nil] at h
      simp only [h, List.nil_append]
      cases walkBits root none bits <;> rfl
    · obtain ⟨b', c', rfl⟩ := List.exists_cons_of_ne_nil hlast
      cases hchild : trieChild b (cur.getD root) with
      | absent => simp [hchild] at h
      | leaf w => simp [hchild] at h
      | node u0 u1 => exact ih hlast (cur := some (.node u0 u1)) (hchild ▸ h)

/-- Code(s) of a symbol with an entry is the code of an entry of that symbol (R244). -/
theorem exists_entry_of_mem_syms {ct : List CodeEntry} {w : Word} (h : w ∈ ct.map (fun e => e.sym)) :
    ∃ e ∈ ct, e.sym = w ∧ codeOf ct w = e.bits := by
  obtain ⟨e₀, he₀, rfl⟩ := List.mem_map.1 h
  cases hfind : ct.find? (fun e => e.sym == e₀.sym) with
  | none => exact absurd (beq_self_eq_true _) (List.find?_eq_none.1 hfind e₀ he₀)
  | some e => exact ⟨e, List.mem_of_find?_eq_some hfind, by simpa using List.find?_some hfind, by simp [codeOf, hfind]⟩

/-- The walk of a table's trie over the codes of symbols gives back the symbols. -/
theorem TrieOf.walkBits_codeBits {ct : List CodeEntry} {root : Trie} (h : TrieOf (tableEntries ct) root) {input : List Word}
    (hinput : ∀ w ∈ input, w ∈ ct.map (fun e => e.sym)) : walkBits root none (codeBits ct input) = some input := by
  induction input with
  | nil => rfl
  | cons w input ih =>
    obtain ⟨hw, hrestmem⟩ := List.forall_mem_cons.1 hinput
    obtain ⟨e, he, rfl, hcode⟩ := exists_entry_of_mem_syms hw
    have hmem : (e.sym.toNat, e.bits) ∈ tableEntries ct := List.mem_map_of_mem (f := fun e => (e.sym.toNat, e.bits)) he
    have hleaf : trieAt root e.bits = .leaf e.sym := by simpa [Word.ofNat] using h.symbol _ hmem
    have hrest : walkBits root none (codeBits ct input) = some input := ih hrestmem
    rw [codeBits, List.flatMap_cons, hcode, walkBits_code_append (h.codes_ne_nil _ hmem) (cur := none) hleaf]
    exact congrArg (Option.map (List.cons e.sym)) hrest

/-- R128, R278: the pad trims what packing added. -/
theorem take_unpackBits_packBits (c : Bits) :
    (unpackBits (packBits c)).take (8 * (packBits c).length - padOf c.length) = c := by
  have hlen : 8 * (packBits c).length - padOf c.length = c.length := by
    simp only [packBits, List.length_map, List.length_range, padOf, payloadLen]
    omega
  rw [hlen, unpackBits_packBits, List.take_left]

/-! ## What a successful ENCODE leaves -/

theorem encodeCheck_ne_ok (s : State) (n : Nat) : encodeCheck s n ≠ some .ok := by
  unfold encodeCheck
  split_ifs <;> simp

/-- Checks (a) to (e) of R241 passed. -/
theorem encodeCheck_none {s : State} {n : Nat} (h : encodeCheck s n = none) :
    s.phase = .codesReady ∧ n ≤ s.cfg.symWords ∧ inputMatches (nodeSlice s.nodes s.leafCount) (symSlice s n) = true := by
  unfold encodeCheck at h
  split_ifs at h with hphase hsize hmatch
  exact ⟨not_not.1 hphase, by omega, by simpa using hmatch⟩

/-- A successful ENCODE passed its checks, and BYT holds the container of OUT_LEN bytes. -/
theorem exec_encode_ok {s t : State} {l : Latch} (hb : s.busy = some l) (h : exec .encode s = .next t) (hok : t.err = .ok) :
    encodeCheck s l.a0.toNat = none ∧
      t.outLen = Word.ofNat (container (codeEntries s) (encodeBits s l.a0.toNat)).length ∧
      ∀ j, bytAt t j = ((container (codeEntries s) (encodeBits s l.a0.toNat))[j]?).getD (bytAt s j) := by
  rw [← (operand_latched hb).1]
  obtain ⟨e, he, rfl⟩ | ⟨hnone, rfl⟩ := exec_encode_next h
  · obtain rfl : e = .ok := hok
    exact absurd he (encodeCheck_ne_ok _ _)
  · exact ⟨hnone, rfl, bytAt_putContainer _ s⟩

/-- Checks (c) to (e) of R241: the input's symbols are loaded ones. -/
theorem mem_syms_of_inputMatches {leaves : List Node} {input : List Word}
    (hasc : leaves.Pairwise (fun a b => a.sym.toNat < b.sym.toNat)) (h : inputMatches leaves input = true) :
    ∀ w ∈ input, w ∈ leaves.map (fun r => r.sym) := by
  intro w hw
  have hdistinct := hasc.imp fun hlt heq => hlt.ne (congrArg BitVec.toNat heq)
  have hperm := count_eq_weightOf_iff.1 ((scanAcceptsTheLoadedMultiset leaves input hdistinct).1 h)
  by_contra hnew
  refine notMem_owed (rem := loadedCounts leaves) ?_ (hperm.mem_iff.1 hw)
  simpa [loadedCounts] using hnew

theorem bytSlice_eq_of_getElem? {u : State} {bytes : List Byte} (h : ∀ j < bytes.length, bytes[j]? = some (bytAt u j)) :
    bytSlice u bytes.length = bytes := by
  refine List.ext_getElem? fun j => ?_
  obtain hlt | hge := lt_or_ge j bytes.length
  · rw [getElem?_bytSlice u hlt, h j hlt]
  · rw [List.getElem?_eq_none hge, List.getElem?_eq_none (by simpa using hge)]

/-- The container as the header's bytes, the table text and the payload. -/
theorem container_eq_cons (ct : List CodeEntry) (c : Bits) :
    container ct c =
      BitVec.ofNat 8 (padOf c.length) :: BitVec.ofNat 8 ((tableText ct).length / 2 ^ 24) ::
        BitVec.ofNat 8 ((tableText ct).length / 2 ^ 16) :: BitVec.ofNat 8 ((tableText ct).length / 2 ^ 8) ::
        BitVec.ofNat 8 (tableText ct).length :: (tableText ct ++ packBits c) := by
  simp [container, be32]

/-- DECODE of a container over an acceptable table gives back the encoded symbols: the text parses to the table's entries, whose trie
is built, and the trimmed payload is the codes' bits. -/
theorem exec_decode_container {u : State} {k : Latch} {ct : List CodeEntry} {input : List Word} (hb : u.busy = some k)
    (hlegal : u.cfg.legal = true) (hfits : (container ct (codeBits ct input)).length ≤ u.cfg.bytBytes)
    (hslice : bytSlice u k.a0.toNat = container ct (codeBits ct input)) (hne : ct ≠ []) (hcodes : ∀ e ∈ ct, e.bits ≠ [])
    (hacc : Acceptable u.cfg (tableEntries ct)) (hinput : ∀ w ∈ input, w ∈ ct.map (fun e => e.sym))
    (hroom : input.length ≤ u.cfg.symWords) :
    ∃ v, exec .decode u = .next v ∧ v.err = .ok ∧ v.outLen.toNat = input.length ∧
      ∀ i < input.length, input[i]? = some (symAt v i) := by
  have hcodes' : ∀ e ∈ tableEntries ct, e.2 ≠ [] := List.forall_mem_map.2 hcodes
  obtain ⟨root, hbuild⟩ := exists_buildTrie_of_tableStatus_none hcodes' ((tableStatus_eq_none_iff hlegal hcodes').2 hacc)
  have hn : k.a0.toNat ≤ u.cfg.bytBytes := by rwa [← hslice, length_bytSlice] at hfits
  have htext : (tableText ct).length < 2 ^ 32 := by
    simp only [Params.legal, Bool.and_eq_true, decide_eq_true_eq] at hlegal
    rw [length_container] at hfits
    omega
  have hpad : (BitVec.ofNat 8 (padOf (codeBits ct input).length)).toNat = padOf (codeBits ct input).length := by
    obtain ⟨-, hpad7, -, -⟩ := padFillsTheLastByte (codeBits ct input).length
    rw [BitVec.toNat_ofNat, Nat.mod_eq_of_lt (by omega)]
  have hpadle : padOf (codeBits ct input).length ≤ 8 * (packBits (codeBits ct input)).length := by
    simp only [packBits, List.length_map, List.length_range, padOf, Nat.sub_le]
  have hwalk : walkBits root none ((unpackBits (packBits (codeBits ct input))).take
      (8 * (packBits (codeBits ct input)).length - padOf (codeBits ct input).length)) = some input := by
    rw [take_unpackBits_packBits]
    exact (trieOf_of_buildTrie_ok hcodes' hbuild).walkBits_codeBits hinput
  obtain ⟨v, hexec, herr, -, -, -, hout, -, -, -, hsyms, -, -⟩ :=
    decodeWritesSymbols u k _ _ _ _ _ _ _ _ root input hb hlegal hn (hslice.trans (container_eq_cons _ _)) (be32_toNat htext)
      (tableTextParsesBack ct hne hcodes) hbuild (by rwa [hpad]) (by rwa [hpad]) hroom
  exact ⟨v, hexec, herr, hout, hsyms⟩

/-- Settles O44: ENCODE's checks passed on loaded symbols, and a generated table is acceptable. -/
theorem decodeInvertsEncode : Obligations.DecodeInvertsEncode := by
  intro s t u l k hb hlegal hc hexec hok hcfg hbu hk hread
  obtain ⟨hcheck, hout, hbyt⟩ := exec_encode_ok hb hexec hok
  obtain ⟨hphase, hroom, hmatch⟩ := encodeCheck_none hcheck
  have hfits := encodeCheck_none_fits hcheck
  obtain ⟨⟨hle, -, hleaves, htree⟩, hct, hentries⟩ := contextOk_codesReady hphase hc
  obtain ⟨hpos, -, -, hasc, -⟩ := id hleaves
  rw [List.length_take_of_le hle] at hpos
  rw [nodeSlice_eq_take _ hle] at hmatch
  rw [encodeBits, hentries] at hout hbyt hfits
  have hsize : (container s.ct (codeBits s.ct (symSlice s l.a0.toNat))).length = k.a0.toNat := by
    simp only [Params.legal, Bool.and_eq_true, decide_eq_true_eq] at hlegal
    rw [hk, hout, Word.toNat_ofNat, Nat.mod_eq_of_lt (by omega)]
  have hslice : bytSlice u k.a0.toNat = container s.ct (codeBits s.ct (symSlice s l.a0.toNat)) := by
    rw [← hsize]
    refine bytSlice_eq_of_getElem? fun j hj => ?_
    rw [hread j (by rw [← hk, ← hsize]; exact hj), hbyt, List.getElem?_eq_getElem hj, Option.getD_some]
  have hne : s.ct ≠ [] := List.ne_nil_of_length_pos (by rw [hct, codeTable_length htree hpos]; exact hpos)
  have hcodes : ∀ e ∈ s.ct, e.bits ≠ [] := fun e he =>
    List.length_pos_iff.1 (codeTable_bits_length htree hpos (hct ▸ he)).1
  have hinput : ∀ w ∈ symSlice s l.a0.toNat, w ∈ s.ct.map (fun e => e.sym) := fun w hw =>
    hct ▸ (codeTable_syms_perm htree hpos).mem_iff.2 (mem_syms_of_inputMatches hasc hmatch w hw)
  obtain ⟨v, hexecv, herrv, houtv, hsyms⟩ := exec_decode_container hbu (hcfg ▸ hlegal) (hcfg ▸ hfits) hslice hne hcodes
    (hcfg ▸ hct ▸ acceptable_codeTable hlegal hleaves htree) hinput (by rwa [hcfg, length_symSlice])
  rw [length_symSlice] at houtv hsyms
  refine ⟨v, hexecv, herrv, BitVec.eq_of_toNat_eq houtv, fun i hi => ?_⟩
  exact Option.some.inj ((hsyms i hi).symm.trans (getElem?_symSlice s hi))

end Sys2Proof.Proofs

namespace Sys2Proof.Proofs

open Sys2Proof.Machine Sys2Proof.Safety Sys2Proof.Laws

/-! ## Completion and failure of the latched command (R161, R310, R316) -/

/-- Settles O7: the latched word names a command, and every command answers, or it completes as illegal. -/
theorem everyIssuedCommandCompletes : Obligations.EveryIssuedCommandCompletes := by
  intro s l hr hb
  rw [coreTurn_busy hr hb]
  cases hd : decode l.cmd with
  | ok i => rw [completeWord_ok hd]; exact exec_answers i s
  | error e => rw [completeWord_error hd]; exact ⟨_, rfl, rfl, rfl⟩

/-- Settles O8, command by command: an answer is a failure, which the statement spells out, or has status OK. -/
theorem failedCommandCommitsNothing : Obligations.FailedCommandCommitsNothing := by
  intro i s t h he
  cases i
  case nop => exact absurd (congrArg State.err (exec_nop_next h)) he
  case clear => exact absurd (congrArg State.err (exec_clear_next h)) he
  case loadFreq =>
    obtain ⟨e, -, rfl⟩ | ⟨-, rfl⟩ := exec_loadFreq_next h
    · rfl
    · exact absurd rfl he
  case buildTree =>
    obtain ⟨-, rfl⟩ | ⟨-, -, rfl⟩ | ⟨-, rfl⟩ := exec_buildTree_next h
    · rfl
    · rfl
    · exact absurd rfl he
  case genCodes =>
    obtain ⟨-, rfl⟩ | ⟨-, rfl⟩ := exec_genCodes_next h
    · rfl
    · exact absurd rfl he
  case encode =>
    obtain ⟨e, -, rfl⟩ | ⟨-, rfl⟩ := exec_encode_next h
    · rfl
    · exact absurd rfl he
  case decode =>
    obtain ⟨e, -, rfl⟩ | ⟨d, -, rfl⟩ := exec_decode_next h
    · rfl
    · exact absurd rfl he

/-! ## IRQ_EN and DONE (R36, R322, R323) -/

theorem irq_iff {s : State} : irq s = true ↔ s.irqEn = true ∧ s.done = true := Bool.and_eq_true_iff

/-- No command changes IRQ_EN. -/
theorem exec_irqEn {i : Instr} {s t : State} (h : exec i s = .next t) : t.irqEn = s.irqEn := by
  by_cases hne : i = .encode
  · subst hne
    obtain ⟨_, -, rfl⟩ | ⟨-, rfl⟩ := exec_encode_next h <;> rfl
  by_cases hnd : i = .decode
  · subst hnd
    obtain ⟨_, -, rfl⟩ | ⟨_, -, rfl⟩ := exec_decode_next h <;> rfl
  rw [exec_context_frame hne hnd h]

/-- The core's turn does nothing, or completes a latched command: DONE is then set, and IRQ_EN as before. -/
theorem coreTurn_flags {s t : State} (h : coreTurn s = .next t) :
    t = s ∨ s.busy.isSome = true ∧ t.irqEn = s.irqEn ∧ t.done = true := by
  obtain rfl | ⟨l, i, -, hb, -, he⟩ | ⟨l, _, -, hb, -, rfl⟩ := coreTurn_next h
  · exact .inl rfl
  · exact .inr ⟨by simp [hb], exec_irqEn he, (exec_completed he).2⟩
  · exact .inr ⟨by simp [hb], rfl, rfl⟩

/-- The registers whose write can move IRQ_EN or DONE stand at one offset each (R30). -/
theorem offset_of_locate {off : Offset} :
    (locate off.toNat = .ctrl → off = 0x008) ∧ (locate off.toNat = .status → off = 0x00C) ∧
      (locate off.toNat = .cmd → off = 0x010) := by
  simp only [← BitVec.toNat_inj]
  unfold locate
  split_ifs
  · unfold regLoc
    split <;> simp [*]
  all_goals simp

/-- What a host move that leads from `s` to `t` makes of IRQ_EN and DONE: reset clears both, a CTRL write stores the one, a STATUS
write with bit 1 and an issue clear the other, and every other move keeps both. -/
inductive FlagEffect (s t : State) : HostMove → Prop where
  | reset (irqEn : t.irqEn = false) (done : t.done = false) : FlagEffect s t .assertRst
  | ctrl (v : Word) (irqEn : t.irqEn = v.getLsbD 0) (done : t.done = s.done) : FlagEffect s t (.write 32 0x008 v)
  | status (v : Word) (irqEn : t.irqEn = s.irqEn) (done : t.done = (s.done && !v.getLsbD 1)) :
      FlagEffect s t (.write 32 0x00C v)
  | issue (v : Word) (idle : s.busy = none) (irqEn : t.irqEn = s.irqEn) (done : t.done = false) :
      FlagEffect s t (.write 32 0x010 v)
  | kept {m : HostMove} (irqEn : t.irqEn = s.irqEn) (done : t.done = s.done) : FlagEffect s t m

theorem writeLoc_flagEffect (off : Offset) (v : Word) (s : State) :
    FlagEffect s (writeLoc (locate off.toNat) v s) (.write 32 off v) := by
  obtain ⟨hctrl, hstatus, hcmd⟩ := offset_of_locate (off := off)
  cases hl : locate off.toNat
  case ctrl => rw [hctrl hl]; exact .ctrl v rfl rfl
  case status => rw [hstatus hl]; exact .status v rfl rfl
  case cmd =>
    rw [hcmd hl]
    cases hb : s.busy with
    | none => exact .issue v hb (by simp [writeLoc, issue_idle v hb]) (by simp [writeLoc, issue_idle v hb])
    | some l => exact .kept (by simp [writeLoc, issue_busy v hb]) (by simp [writeLoc, issue_busy v hb])
  case sym i => rw [writeLoc, symPut_block]; exact .kept rfl rfl
  case byt j => rw [writeLoc, bytPut_block]; exact .kept rfl rfl
  all_goals exact .kept rfl rfl

theorem hostMove_flagEffect {m : HostMove} {s t : State} (h : hostMove m s = .next t) : FlagEffect s t m := by
  obtain ⟨rfl, rfl⟩ | ⟨-, rfl⟩ | ⟨-, ⟨_, -, -, rfl⟩ | ⟨off, v, rfl, -, -, rfl⟩ | ⟨-, rfl⟩ | ⟨-, rfl⟩⟩ := hostMove_next h
  · exact .reset rfl rfl
  · exact .kept rfl rfl
  · exact .kept rfl rfl
  · exact writeLoc_flagEffect off v s
  · rw [pollBusy_block]; exact .kept rfl rfl
  · rw [pollErr_block]; exact .kept rfl rfl

/-- No host move sets DONE. -/
theorem FlagEffect.done_of_done {s t : State} {m : HostMove} (h : FlagEffect s t m) (ht : t.done = true) :
    s.done = true := by
  cases h
  case reset _ hdone => simp [hdone] at ht
  case ctrl _ hdone => rwa [hdone] at ht
  case status _ hdone =>
    rw [hdone, Bool.and_eq_true] at ht
    exact ht.1
  case issue _ _ hdone => simp [hdone] at ht
  case kept _ hdone => rwa [hdone] at ht

/-- The moves of R323, by which the host or the platform lowers irq in state `s`. -/
def LowersIrq (s : State) (m : HostMove) : Prop :=
  m = .assertRst ∨
  (∃ v : Word, m = .write 32 0x00C v ∧ v.getLsbD 1 = true) ∨
  (∃ v : Word, m = .write 32 0x010 v ∧ s.busy = none) ∨
  (∃ v : Word, m = .write 32 0x008 v ∧ v.getLsbD 0 = false)

/-- A host move after which irq is low, where it was high, is one of R323. -/
theorem FlagEffect.lowersIrq {s t : State} {m : HostMove} (h : FlagEffect s t m) (hs : irq s = true) (ht : irq t = false) :
    LowersIrq s m := by
  obtain ⟨hen, hdone⟩ := irq_iff.1 hs
  cases h
  case reset => exact .inl rfl
  case ctrl v hen' hdone' => exact .inr (.inr (.inr ⟨v, rfl, by simpa [irq, hen', hdone', hdone] using ht⟩))
  case status v hen' hdone' => exact .inr (.inl ⟨v, rfl, by simpa [irq, hen', hdone', hen, hdone] using ht⟩)
  case issue v hb _ _ => exact .inr (.inr (.inl ⟨v, rfl, hb⟩))
  case kept hen' hdone' => simp [irq, hen', hdone', hen, hdone] at ht

/-- R36: only the core's completion of a latched command sets DONE. -/
theorem step_sets_done {s t : State} (h : step s = .next t) (hs : s.done = false) (ht : t.done = true) :
    nextAgent s = .core ∧ s.busy.isSome = true := by
  obtain ⟨-, hturn⟩ | ⟨hagent, hturn⟩ := step_next h
  · obtain ⟨-, rfl⟩ | ⟨m, ms, -, hm⟩ := hostTurn_next hturn
    · exact absurd ht (by simp [hs])
    · exact absurd ((hostMove_flagEffect hm).done_of_done ht) (by simp [hs])
  · obtain rfl | ⟨hb, -, -⟩ := coreTurn_flags hturn
    · exact absurd ht (by simp [hs])
    · exact ⟨hagent, hb⟩

/-- R323: only the host's turn lowers irq, and only by a listed move. -/
theorem step_lowers_irq {s t : State} (h : step s = .next t) (hs : irq s = true) (ht : irq t = false) :
    nextAgent s = .host ∧ ∃ m ms, s.script = m :: ms ∧ LowersIrq s m := by
  obtain ⟨hagent, hturn⟩ | ⟨-, hturn⟩ := step_next h
  · obtain ⟨-, rfl⟩ | ⟨m, ms, hscript, hm⟩ := hostTurn_next hturn
    · exact absurd hs (Bool.eq_false_iff.1 ht)
    · exact ⟨hagent, m, ms, hscript, (hostMove_flagEffect hm).lowersIrq hs ht⟩
  · obtain rfl | ⟨-, hen, hdone⟩ := coreTurn_flags hturn
    · exact absurd hs (Bool.eq_false_iff.1 ht)
    · have hhigh : irq t = true := irq_iff.2 ⟨hen.trans (irq_iff.1 hs).1, hdone⟩
      exact absurd hhigh (Bool.eq_false_iff.1 ht)

/-- Settles O51: what raises and lowers irq by `step_sets_done` and `step_lowers_irq`, and each listed move by its write. -/
theorem onlyTheseClearIrq : Obligations.OnlyTheseClearIrq := by
  refine ⟨fun s => irq_iff, fun s t => step_sets_done, fun s t => step_lowers_irq, fun s => ⟨_, rfl, rfl⟩,
    fun s v hr => ⟨fun hv => ?_, fun hb => ?_, fun hv => ?_⟩⟩
  · exact ⟨writeStatus v s, hostMove_write_outside hr rfl rfl rfl, by simp [irq, hv]⟩
  · exact ⟨issue v s, hostMove_write_cmd v hr, by simp [irq, issue_idle v hb]⟩
  · exact ⟨writeCtrl v s, hostMove_write_outside hr rfl rfl rfl, by rw [irq, writeCtrl_irqEn, hv, Bool.false_and], rfl⟩

end Sys2Proof.Proofs

namespace Sys2Proof.Proofs

open Sys2Proof.Machine Sys2Proof.Safety Sys2Proof.Laws

/-! ## Reset (R350, R351) -/

/-- STATUS reads 0 where no flag is set, the status is OK and the context is empty (R34, R63). -/
theorem statusWord_eq_zero {s : State} (hbusy : s.busy = none) (hdone : s.done = false) (hdropped : s.cmdDropped = false)
    (herr : s.err = .ok) (hphase : s.phase = .empty) : statusWord s = 0 := by
  rw [statusWord, hbusy, hdone, hdropped, herr, hphase]
  rfl

/-- CTRL reads 0 where the interrupt is not enabled (R33). -/
theorem ctrlWord_eq_zero {s : State} (h : s.irqEn = false) : ctrlWord s = 0 := by
  rw [ctrlWord, h]
  rfl

/-- Reset leaves the state of R351, but for the number of the reset and what is the host's. -/
theorem releaseReset_assertReset (s : State) :
    releaseReset (assertReset s) =
      { State.resetWith s.cfg with
        epoch := s.epoch + 1, draws := s.draws, script := s.script, turns := s.turns, reads := s.reads } := rfl

/-- Settles O56: the two moves lead to the state of R351, whose registers are read off. -/
theorem resetLeavesResetValues : Obligations.ResetLeavesResetValues := by
  intro s
  refine ⟨assertReset s, releaseReset (assertReset s), rfl, rfl, rfl, rfl, ?_⟩
  rw [releaseReset_assertReset]
  exact ⟨rfl, rfl, rfl, statusWord_eq_zero rfl rfl rfl rfl rfl, ctrlWord_eq_zero rfl, rfl, rfl, rfl, rfl, rfl, rfl, rfl, rfl, rfl, rfl, rfl⟩

/-! ## Reads (R90, R358) -/

/-- The registers that R358 lists. -/
def alwaysReadableRegs : List Offset := [0x000, 0x004, 0x008, 0x00C, 0x014, 0x018, 0x03C, 0x040, 0x044, 0x048]

/-- The offsets that read their true value at all times: those of R358's registers, and the reserved ones (R51). -/
def AlwaysReadable (off : Offset) : Prop :=
  off ∈ alwaysReadableRegs ∨ 0x04C ≤ off.toNat ∧ off.toNat < 0x100000 ∨ 0x300000 ≤ off.toNat ∧ off.toNat < 0x400000

/-- R30: of the nineteen registers, those that R358 lists. -/
theorem alwaysTrue_register : ∀ k < 19,
    (alwaysTrue (locate (BitVec.ofNat 24 (4 * k)).toNat) = true ↔ BitVec.ofNat 24 (4 * k) ∈ alwaysReadableRegs) := by
  decide

theorem alwaysReadableRegs_lt : ∀ off ∈ alwaysReadableRegs, off.toNat < 0x04C := by simp [alwaysReadableRegs]

/-- Past the registers and outside the reserved ranges lie the four windows, which are no always-readable locations. -/
theorem alwaysTrue_window {a : Nat} (hreg : 0x04C ≤ a) (hlo : ¬ (0x04C ≤ a ∧ a < 0x100000))
    (hhi : ¬ (0x300000 ≤ a ∧ a < 0x400000)) : alwaysTrue (locate a) = false := by
  obtain h | h | h | h :
    (0x100000 ≤ a ∧ a < 0x200000) ∨ (0x200000 ≤ a ∧ a < 0x300000) ∨ (0x400000 ≤ a ∧ a < 0x800000) ∨ 0x800000 ≤ a := by
      omega
  · rw [locate_node h.1 h.2]; rfl
  · rw [locate_code h.1 h.2]; rfl
  · rw [locate_sym h.1 h.2]; rfl
  · rw [locate_byt h]; rfl

/-- The locations that `alwaysTrue` names are those of R358 and the reserved ones, by their offsets. -/
theorem alwaysTrue_locate_iff {off : Offset} (h4 : off.toNat % 4 = 0) :
    alwaysTrue (locate off.toNat) = true ↔ AlwaysReadable off := by
  by_cases hreg : off.toNat < 0x04C
  · have hoff : BitVec.ofNat 24 (4 * (off.toNat / 4)) = off := by
      rw [Nat.mul_div_cancel' (Nat.dvd_of_mod_eq_zero h4), BitVec.ofNat_toNat, BitVec.setWidth_eq]
    have hk := alwaysTrue_register (off.toNat / 4) (by omega)
    rw [hoff] at hk
    rw [hk, AlwaysReadable, or_iff_left (by omega)]
  · rw [AlwaysReadable, or_iff_right fun h => hreg (alwaysReadableRegs_lt off h)]
    refine ⟨fun h => ?_, fun h => by rw [locate_reserved h4 h]; rfl⟩
    by_contra hres
    obtain ⟨hlo, hhi⟩ := not_or.1 hres
    exact Bool.eq_false_iff.1 (alwaysTrue_window (Nat.not_lt.1 hreg) hlo hhi) h

/-- Idle or at an always-readable offset, a read is no draw. -/
theorem isDrawn_eq_false {s : State} {off : Offset} (h4 : off.toNat % 4 = 0)
    (h : s.busy = none ∨ AlwaysReadable off) : isDrawn s (locate off.toNat) = false :=
  h.elim (fun hb => isDrawn_idle hb _) fun ho => isDrawn_alwaysTrue ((alwaysTrue_locate_iff h4).2 ho)

/-- While busy, a read at any other offset is a draw. -/
theorem isDrawn_eq_true {s : State} {off : Offset} (h4 : off.toNat % 4 = 0) (hb : s.busy.isSome = true)
    (h : ¬ AlwaysReadable off) : isDrawn s (locate off.toNat) = true := by
  have ht : alwaysTrue (locate off.toNat) = false := Bool.eq_false_iff.2 (mt (alwaysTrue_locate_iff h4).1 h)
  simp [isDrawn, hb, ht]

/-- Settles O46: a read is a draw or returns the true value, which its offset says; the registers stand at their offsets. -/
theorem readsHaveNoSideEffect : Obligations.ReadsHaveNoSideEffect := by
  refine ⟨fun s off hr h4 => ?_, fun s hr hb => ?_, fun s v hr off hoff => ?_⟩
  · refine ⟨hostRead (locate off.toNat) s, readValue s (locate off.toNat), hostMove_read hr h4, rfl,
      fun h => ?_, fun hb hregs hlo hhi => ?_⟩
    · have hd := isDrawn_eq_false h4 h
      exact ⟨by simp [readValue, hd], by simp [hostRead, hd]⟩
    · have hd := isDrawn_eq_true h4 hb (not_or.2 ⟨hregs, not_or.2 ⟨hlo, hhi⟩⟩)
      exact ⟨by simp [readValue, hd], by simp [hostRead, hd]⟩
  · and_intros <;> exact hostMove_read_idle hr rfl rfl hb
  · fin_cases hoff <;> exact hostMove_write_outside hr rfl rfl rfl

end Sys2Proof.Proofs
